-- ==== Sys2Proof/Word.lean ====
section
/-! DEFINITION. The word types of the GBMD core (00_scope R14, 10_state R21). -/

namespace Sys2Proof

/-- A byte is 8 bits, bit 0 the least significant (00_scope R14). -/
abbrev Byte := BitVec 8

/-- A host scalar register `x[i]` or `RV`: 16 bits (10_state R21, R22). -/
abbrev Word := BitVec 16

end Sys2Proof
end

