-- ==== Sys2Proof/Config.lean ====
section
/-! DEFINITION. What is fixed when the block is constructed (00_scope R8 R9, 10_state R23), and the free values: the
constants with no body that stand for what the spec leaves open. The values this hardware takes are in
Machine/Construction.lean. -/

namespace Sys2Proof

/-- `MODULE`: which module type the block is bound to (10_state R23). -/
inductive ModuleType
  | character
  | sevenSegment
  deriving DecidableEq, Repr

/-- `TEMP_ROUND`: how a temperature shown without a decimal place is rounded (00_scope R8). This hardware truncates
toward zero; `down` is a second value, so that the field is a parameter. DESIGN CHOICE, log 21. -/
inductive TempRound
  | towardZero
  | down
  deriving DecidableEq, Repr

/-- `SEG`: the named segment bitmasks (30_encoding R86). `digits` holds `D0` to `DF`, sixteen bytes. -/
structure SegTable where
  digits     : List Byte
  dash       : Byte
  underscore : Byte
  blank      : Byte
  deriving DecidableEq, Repr

/-- The configuration registers (10_state R23) and parameters (00_scope R8). No step writes them. -/
structure Config where
  /-- `FRAME_LEN`, written `N` -/
  frameLen    : BitVec 8
  /-- `SYNC`, byte 0 of every frame -/
  sync        : Byte
  /-- `CRC_POLY` -/
  crcPoly     : Byte
  /-- `W_BUDGET` -/
  wBudget     : BitVec 6
  /-- `R_BUDGET` -/
  rBudget     : BitVec 3
  /-- `WAIT_TIMEOUT`, in ticks; no rule reads it, the model being untimed (41_transport_adapter R124) -/
  waitTimeout : BitVec 2
  /-- `CMD_OFFSET` -/
  cmdOffset   : BitVec 2
  /-- `RX_CRC_CHECK` -/
  rxCrcCheck  : Bool
  /-- `MODULE` -/
  moduleType  : ModuleType
  /-- `CRC_INIT` -/
  crcInit     : Byte
  /-- `CRC_XOROUT` -/
  crcXorOut   : Byte
  /-- `SEG` -/
  seg         : SegTable
  /-- `TEMP_ROUND` -/
  tempRound   : TempRound
  /-- `W_COLOR`, `W_RAW`, `W_LINE`, `W_CUSTOM`: widths of the character module's endpoints (10_state R24) -/
  wColor      : BitVec 8
  wRaw        : BitVec 8
  wLine       : BitVec 8
  wCustom     : BitVec 8
  deriving DecidableEq, Repr

/-- `TICK`, the length of one tick: OPEN, and read by nothing (00_scope R8, log 14). -/
opaque Config.tick : Nat

/-- `BRIGHT_ENC`, the byte of a brightness level in 0.0 to 1.0: OPEN (10_state R24, log 31). The host applies it. -/
opaque Config.brightEnc : Rat → Byte

/-- Free value: `RV` where a rule leaves it `any` (30_encoding R81, 60_exceptions R222, log 6). -/
opaque Config.freeWord : Nat → Word

/-- Free value: `DOLEN` where a rule leaves it `any` (log 6). -/
opaque Config.freeLen : Nat → BitVec 8

/-- Free value: byte `i` of `DOUT` where a rule leaves it `any` (log 6). -/
opaque Config.freeByte : Nat → Nat → Byte

/-- Free value: byte `i` of what the transport presents in an exchange (41_transport_adapter R120, log 4). -/
opaque Config.freeRx : Nat → Nat → Byte

/-- Free value: whether a ready edge comes before a step (41_transport_adapter R123, log 4). -/
opaque Config.freeReady : Nat → Bool

end Sys2Proof
end

