-- ==== Sys2Proof/Syntax.lean ====
section
/-! DEFINITION. The instructions: one constructor per row of the opcode table (30_encoding R80, R76). A host operation's
word is the `OP` register alone and its operands stand in the request registers (R81); a frame's word is its first two
bytes and its payload stands in the channel's registers. So no constructor carries an operand. -/

namespace Sys2Proof

inductive Instr
  -- frame codec
  | fcCrc8 | fcEncode | fcDecode | fcPoll | fcCheck
  -- command channel
  | ccSet | ccGet
  -- value encoder
  | veDig | veChr | veI2d | veClz | veInt | veFix | veStr | veClk | veDur | veTmp
  -- display-value operations
  | dispInt | dispFix | dispStr | dispClk | dispDur | dispTmp
  -- frames the sequencer transmits
  | poll
  | rdDisplayValue | rdBrightness | rdColon | rdApostrophe
  | wrDisplayValue | wrBrightness | wrColon | wrApostrophe
  | rdColor | rdRawPassthrough | rdLine | rdCustomCharacter
  | wrColor | wrRawPassthrough | wrLine | wrCustomCharacter
  deriving DecidableEq, Repr

end Sys2Proof
end

