-- ==== Sys2Proof/WellFormed.lean ====
section
/-! DEFINITION. When a configuration is one the spec allows (00_scope R8, 10_state R23 R24, 30_encoding R86), and when an
instruction exists on a block bound to a module type (30_encoding R76). -/

namespace Sys2Proof

/-- `N`, the length of every frame. -/
def Config.n (c : Config) : Nat := c.frameLen.toNat

/-- `PCAP = N - 3`, the payload capacity (00_scope R8). -/
def Config.pcap (c : Config) : Nat := c.n - 3

/-- `SYNC` and `CRC_POLY` at the document's constants (00_scope R8). -/
def Config.framingOk (c : Config) : Bool :=
  c.sync == 0x80#8 && c.crcPoly == 0x07#8

/-- The frame length a module type allows: `N >= 3`, and `N >= 7` for the seven-segment module (00_scope R8). -/
def Config.frameLenOk (c : Config) : Bool :=
  3 ≤ c.n && (c.moduleType == .character || 7 ≤ c.n)

/-- Budgets and timeout at the document's constants (10_state R23). -/
def Config.budgetsOk (c : Config) : Bool :=
  c.wBudget == 36#6 && c.rBudget == 4#3 && c.waitTimeout == 3#2

/-- `CMD_OFFSET` has a legal value, 1 or 2 (10_state R23). -/
def Config.cmdOffsetOk (c : Config) : Bool :=
  c.cmdOffset == 1#2 || c.cmdOffset == 2#2

/-- `1 <= width <= PCAP` for an endpoint of an open width (10_state R24). -/
def Config.widthOk (c : Config) (w : BitVec 8) : Bool :=
  1 ≤ w.toNat && w.toNat ≤ c.pcap

/-- The four open widths fit the frame; they matter on a character module only. -/
def Config.widthsOk (c : Config) : Bool :=
  c.moduleType == .sevenSegment ||
    (c.widthOk c.wColor && c.widthOk c.wRaw && c.widthOk c.wLine && c.widthOk c.wCustom)

/-- The sixteen digit masks are distinct, not blank, and have no decimal point; blank lights nothing, and neither the dash
nor the underscore has the point (30_encoding R86). -/
def SegTable.wf (t : SegTable) : Bool :=
  t.digits.length == 16 && decide t.digits.Nodup && !t.digits.contains t.blank &&
    t.digits.all (fun d => !d.getLsbD 7) && t.blank == 0 && !t.dash.getLsbD 7 && !t.underscore.getLsbD 7

/-- A configuration the spec allows. -/
def Config.wf (c : Config) : Bool :=
  c.framingOk && c.frameLenOk && c.budgetsOk && c.cmdOffsetOk && c.widthsOk && c.seg.wf

/-- The module type a frame row belongs to; none for the rows of either module (30_encoding R76). -/
def Instr.boundTo : Instr → Option ModuleType
  | .rdDisplayValue | .rdBrightness | .rdColon | .rdApostrophe
  | .wrDisplayValue | .wrBrightness | .wrColon | .wrApostrophe => some .sevenSegment
  | .rdColor | .rdRawPassthrough | .rdLine | .rdCustomCharacter
  | .wrColor | .wrRawPassthrough | .wrLine | .wrCustomCharacter => some .character
  | .fcCrc8 | .fcEncode | .fcDecode | .fcPoll | .fcCheck | .ccSet | .ccGet
  | .veDig | .veChr | .veI2d | .veClz | .veInt | .veFix | .veStr | .veClk | .veDur | .veTmp
  | .dispInt | .dispFix | .dispStr | .dispClk | .dispDur | .dispTmp | .poll => none

/-- An instruction is well-formed on a block when its row is not the other module type's. -/
def Instr.wf (m : ModuleType) (i : Instr) : Bool :=
  match i.boundTo with
  | none => true
  | some m' => m' == m

end Sys2Proof
end

