-- ==== Sys2Proof/Decode.lean ====
section
/-! DEFINITION. The decoder, total on any bytes and rejecting by name, and the encoder, both read from the encoding tables
of 30_encoding: R80 (operation codes) and R76 (the frame opcode map). -/

namespace Sys2Proof

/-- Why bytes are no instruction. -/
inductive Reject
  /-- no bytes at all -/
  | empty
  /-- `OP` is a code that R80 does not list (30_encoding R82) -/
  | reservedOp
  /-- byte 0 of a frame is not the sync marker, so R76 has no row for it -/
  | noSync
  /-- the command byte of a frame names no endpoint of the bound module (30_encoding R78) -/
  | unlistedFrame
  deriving DecidableEq, Repr

/-- Byte 0 of every row of the frame opcode map (30_encoding R76), which is the value a legal configuration gives `SYNC`
(00_scope R8, 30_encoding R70). -/
def syncByte : Byte := 0x80

/-- The command byte: direction in bit 7 (1 = WRITE), endpoint code in bits 6:0 (30_encoding R71). -/
def cmdByte (write : Bool) (ep : BitVec 7) : Byte := BitVec.ofBool write ++ ep

/-- Operation codes (30_encoding R80). -/
def opTable : List (Byte × Instr) :=
  [(0x10, .fcCrc8), (0x11, .fcEncode), (0x12, .fcDecode), (0x13, .fcPoll), (0x14, .fcCheck),
   (0x20, .ccSet), (0x21, .ccGet),
   (0x30, .veDig), (0x31, .veChr), (0x32, .veI2d), (0x33, .veClz), (0x34, .veInt),
   (0x35, .veFix), (0x36, .veStr), (0x37, .veClk), (0x38, .veDur), (0x39, .veTmp),
   (0x40, .dispInt), (0x41, .dispFix), (0x42, .dispStr), (0x43, .dispClk), (0x44, .dispDur),
   (0x45, .dispTmp)]

/-- Command bytes of the frames of each module type (30_encoding R76); byte 0 is the sync marker in every row. -/
def frameTable : ModuleType → List (Byte × Instr)
  | .sevenSegment =>
    [(0x00, .poll),
     (0x01, .rdDisplayValue), (0x02, .rdBrightness), (0x03, .rdColon), (0x04, .rdApostrophe),
     (0x81, .wrDisplayValue), (0x82, .wrBrightness), (0x83, .wrColon), (0x84, .wrApostrophe)]
  | .character =>
    [(0x00, .poll),
     (0x01, .rdColor), (0x02, .rdRawPassthrough), (0x03, .rdLine), (0x04, .rdCustomCharacter),
     (0x81, .wrColor), (0x82, .wrRawPassthrough), (0x83, .wrLine), (0x84, .wrCustomCharacter)]

/-- The host operation of an operation code (30_encoding R80, R82). -/
def decodeOp (op : Byte) : Except Reject Instr :=
  match opTable.lookup op with
  | some i => .ok i
  | none   => .error .reservedOp

/-- The frame row of the first two bytes of an outgoing frame (30_encoding R76). -/
def decodeHead (m : ModuleType) (b0 b1 : Byte) : Except Reject Instr :=
  if b0 = syncByte then
    match (frameTable m).lookup b1 with
    | some i => .ok i
    | none   => .error .unlistedFrame
  else .error .noSync

/-- The decoder. One byte is the content of `OP` on the host port; two or more are a frame on the frame port, of which
R76 looks at the first two and at `MODULE`. -/
def decode (m : ModuleType) : List Byte → Except Reject Instr
  | []            => .error .empty
  | [op]          => decodeOp op
  | b0 :: b1 :: _ => decodeHead m b0 b1

/-- The encoder: the word of an instruction, byte 0 first (30_encoding R80, R76, R71). -/
def encode : Instr → List Byte
  | .fcCrc8 => [0x10]
  | .fcEncode => [0x11]
  | .fcDecode => [0x12]
  | .fcPoll => [0x13]
  | .fcCheck => [0x14]
  | .ccSet => [0x20]
  | .ccGet => [0x21]
  | .veDig => [0x30]
  | .veChr => [0x31]
  | .veI2d => [0x32]
  | .veClz => [0x33]
  | .veInt => [0x34]
  | .veFix => [0x35]
  | .veStr => [0x36]
  | .veClk => [0x37]
  | .veDur => [0x38]
  | .veTmp => [0x39]
  | .dispInt => [0x40]
  | .dispFix => [0x41]
  | .dispStr => [0x42]
  | .dispClk => [0x43]
  | .dispDur => [0x44]
  | .dispTmp => [0x45]
  | .poll => [syncByte, cmdByte false 0x00]
  | .rdDisplayValue => [syncByte, cmdByte false 0x01]
  | .rdBrightness => [syncByte, cmdByte false 0x02]
  | .rdColon => [syncByte, cmdByte false 0x03]
  | .rdApostrophe => [syncByte, cmdByte false 0x04]
  | .wrDisplayValue => [syncByte, cmdByte true 0x01]
  | .wrBrightness => [syncByte, cmdByte true 0x02]
  | .wrColon => [syncByte, cmdByte true 0x03]
  | .wrApostrophe => [syncByte, cmdByte true 0x04]
  | .rdColor => [syncByte, cmdByte false 0x01]
  | .rdRawPassthrough => [syncByte, cmdByte false 0x02]
  | .rdLine => [syncByte, cmdByte false 0x03]
  | .rdCustomCharacter => [syncByte, cmdByte false 0x04]
  | .wrColor => [syncByte, cmdByte true 0x01]
  | .wrRawPassthrough => [syncByte, cmdByte true 0x02]
  | .wrLine => [syncByte, cmdByte true 0x03]
  | .wrCustomCharacter => [syncByte, cmdByte true 0x04]

/-- The bytes of a table word. A row of 8 bits is the content of `OP`. A row of 16 bits is `frame[0] ∥ frame[1]` with
`frame[0]` in the high bits (30_encoding R76), so the high byte lies first; the bytes after it are zero, up to the
shortest observed frame length (18). -/
def tableBytes (nbits w : Nat) : List Byte :=
  if nbits = 8 then [BitVec.ofNat 8 w]
  else if nbits = 16 then
    BitVec.ofNat 8 (w / 256) :: BitVec.ofNat 8 w :: List.replicate 16 0x00
  else []

/-- The instruction the decoder reads from a word of the opcode table. The eight words 0x8001 to 0x8004 and 0x8081 to
0x8084 belong to both module types and are told apart by `MODULE`, never by their bytes (30_encoding R76); this function
is given no `MODULE` and takes the one of `State.reset`, the seven-segment module (log 8). -/
def decodeTableWord (nbits w : Nat) : Option Instr :=
  match decode .sevenSegment (tableBytes nbits w) with
  | .ok i    => some i
  | .error _ => none

end Sys2Proof
end

