-- ==== Sys2Proof/Machine/Construction.lean ====
section
/-! DEFINITION. Construction (70_reset_and_hazards R241): the segment table, the endpoint table and the configuration that
`State.reset` takes. -/

namespace Sys2Proof.Machine

/-- The segment bitmasks `D0` to `DF`, `DASH`, `UNDERSCORE`, `BLANK` (30_encoding R86). -/
def defaultSeg : SegTable where
  digits     := [0x3F, 0x06, 0x5B, 0x4F, 0x66, 0x6D, 0x7D, 0x07, 0x7F, 0x6F, 0x77, 0x7C, 0x39, 0x5E, 0x79, 0x71]
  dash       := 0x40
  underscore := 0x08
  blank      := 0x00

/-- The configuration registers at this hardware's constants (10_state R23, 00_scope R8), for a module type, a frame
length and the four open widths. -/
def configOf (m : ModuleType) (n wColor wRaw wLine wCustom : BitVec 8) : Config where
  frameLen    := n
  sync        := 0x80
  crcPoly     := 0x07
  wBudget     := 36
  rBudget     := 4
  waitTimeout := 3
  cmdOffset   := 1
  rxCrcCheck  := true
  moduleType  := m
  crcInit     := 0x00
  crcXorOut   := 0x00
  seg         := defaultSeg
  tempRound   := .towardZero
  wColor      := wColor
  wRaw        := wRaw
  wLine       := wLine
  wCustom     := wCustom

/-- The configuration of `State.reset`: a seven-segment module with 18-byte frames. DESIGN CHOICE, unsafe: the spec leaves
the module type, the frame length and the four widths open (log 1). -/
def defaultConfig : Config := configOf .sevenSegment 18 15 15 15 15

/-- A descriptor of the endpoint table (10_state R24). -/
structure Endpoint where
  code   : BitVec 7
  width  : Nat
  hasSub : Bool
  msgid  : Bool
  deriving DecidableEq, Repr

/-- `EP_TABLE` of the bound module type (10_state R24). -/
def epTable (c : Config) : List Endpoint :=
  match c.moduleType with
  | .sevenSegment =>
    [⟨0x01, 4, false, false⟩,   -- DisplayValue
     ⟨0x02, 1, false, false⟩,   -- Brightness
     ⟨0x03, 1, false, false⟩,   -- Colon
     ⟨0x04, 1, false, false⟩]   -- Apostrophe
  | .character =>
    [⟨0x01, c.wColor.toNat, false, false⟩,    -- Color
     ⟨0x02, c.wRaw.toNat, false, true⟩,       -- RawPassthrough
     ⟨0x03, c.wLine.toNat, true, false⟩,      -- Line
     ⟨0x04, c.wCustom.toNat, true, false⟩]    -- CustomCharacter

/-- The descriptor of an endpoint code, if the bound module type has one (10_state R24, 60_exceptions R223). -/
def endpoint? (c : Config) (ep : BitVec 7) : Option Endpoint :=
  (epTable c).find? (fun e => e.code == ep)

end Sys2Proof.Machine
end

