-- ==== Sys2Proof/Machine/State.lean ====
section
/-! DEFINITION. The state of the block as plain data (10_state R20), the reasons a step can stop, and the state after
reset (10_state R37, 70_reset_and_hazards R240). -/

namespace Sys2Proof.Machine

/-- Why the machine stops with a fault. -/
inductive Fault
  /-- Raised by the validating step when the response buffer is shorter than an offset it must read. 20_memory R54 lets a
  model take such an index as unreachable; only a `FRAME_LEN` below 3 (which 00_scope R8 forbids) or a `CMD_OFFSET`
  beyond the frame gives it. Safe: no legal configuration reaches it. -/
  | bufferOffset
  deriving DecidableEq, Repr

/-- Why there is no next state without a fault. -/
inductive Refusal
  /-- Raised by an arm of `exec` that has no meaning yet; no arm of this model does. Safe. -/
  | notModelled (mnemonic : String)
  /-- Raised by the meaning of a frame when the sequencer is not in the state whose step sends that frame: "a pair not
  listed has no step" (42_command_channel R147). No run from a legal configuration asks for one. Safe. -/
  | noStep
  /-- Raised by `step` when the frame the sequencer would send is in no row of the frame opcode map (30_encoding R76,
  R78: the block never transmits such a frame). No run from a legal configuration reaches it. Safe. -/
  | unlistedFrame
  deriving DecidableEq, Repr

/-- The status codes of `ST` (60_exceptions R221). Codes 6 and 7 are never written by the block, so they are not here
(93_implementation_defined U9, log 18). -/
inductive Status
  | ok | fail | errArg | errCap | errOp | errLen
  deriving DecidableEq, Repr

/-- The 3-bit code of a status (60_exceptions R221). -/
def Status.code : Status → BitVec 3
  | .ok => 0 | .fail => 1 | .errArg => 2 | .errCap => 3 | .errOp => 4 | .errLen => 5

/-- The states of the sequencer, `CC.st` (10_state R26). -/
inductive SeqState
  | idle | sending | awaitingSignal | polling | validating | retryInner | retryOuter | success | failed
  deriving DecidableEq, Repr

/-- The 4-bit code of a sequencer state (10_state R26: in that order, 0 to 8; nothing depends on it). -/
def SeqState.code : SeqState → BitVec 4
  | .idle => 0 | .sending => 1 | .awaitingSignal => 2 | .polling => 3 | .validating => 4
  | .retryInner => 5 | .retryOuter => 6 | .success => 7 | .failed => 8

/-- `CC.kind` (10_state R27). -/
inductive Kind
  | set | get
  deriving DecidableEq, Repr

/-- `CC.phase` (10_state R27). -/
inductive Phase
  | wr | rd
  deriving DecidableEq, Repr

/-- An event of `CC.seq` (10_state R31): one per exchange, with both frames, and one per wait, with its result. -/
inductive Event
  | exch (tx rx : List Byte)
  | wait (result : Bool)
  deriving DecidableEq, Repr

/-- One byte-addressed space (20_memory R50): the offsets that do not read as `0x00`, rising. -/
structure Memory where
  cells : List Host.Cell
  deriving DecidableEq, Repr

/-- The request registers (10_state R21). -/
structure ReqRegs where
  op    : Byte
  x0    : Word
  x1    : Word
  x2    : Word
  x3    : Word
  ep    : BitVec 7
  subEn : Bool
  sub   : Byte
  din   : Memory
  dlen  : BitVec 8
  deriving DecidableEq, Repr

/-- The result registers (10_state R22). -/
structure ResRegs where
  st    : Status
  rv    : Word
  dout  : Memory
  dolen : BitVec 8
  deriving DecidableEq, Repr

/-- The command-channel registers (10_state R26 to R31). `mid` is the `MSGID` value kept at admission for `RV[15:8]`
(42_command_channel R135, R145). -/
structure Channel where
  st    : SeqState
  kind  : Kind
  phase : Phase
  ep    : BitVec 7
  subEn : Bool
  sub   : Byte
  want  : List Byte
  wlen  : BitVec 8
  wcnt  : BitVec 6
  rcnt  : BitVec 3
  got   : List Byte
  seq   : List Event
  mid   : BitVec 8
  deriving DecidableEq, Repr

/-- One set that a display operation runs: endpoint code and value bytes (44_display_operations R200, R206). -/
structure SetReq where
  ep    : BitVec 7
  value : List Byte
  deriving DecidableEq, Repr

/-- A display operation in progress: the sets still to start, and whether every finished one was `OK`
(44_display_operations R206, log 10). -/
structure DispRun where
  pending : List SetReq
  allOk   : Bool
  deriving DecidableEq, Repr

/-- What the host writes into the request registers before it pulses start (30_encoding R81, R83): ALL of them, in every
request. A register the request does not name takes the value below, zero: the spec says nothing of the registers that a
request, or the expansion of a pseudo-operation (30_encoding R84), does not fix. DESIGN CHOICE, unsafe (log 33). -/
structure Request where
  op    : Byte
  x0    : Word := 0
  x1    : Word := 0
  x2    : Word := 0
  x3    : Word := 0
  ep    : BitVec 7 := 0
  subEn : Bool := false
  sub   : Byte := 0
  din   : List Byte := []
  deriving DecidableEq, Repr

/-- What the input lines carry before a step: a ready edge (41_transport_adapter R123, R127) and the reset input
(70_reset_and_hazards R240). -/
structure Lines where
  ready : Bool := false
  reset : Bool := false
  deriving DecidableEq, Repr

/-- The state of the block (10_state R20), its configuration, and the model's own input lists and counter. -/
structure State where
  /-- the configuration registers (10_state R23); written by no step -/
  cfg     : Config
  /-- the request registers (10_state R21) -/
  req     : ReqRegs
  /-- the result registers (10_state R22) -/
  res     : ResRegs
  /-- `TXBUF` (10_state R25) -/
  txbuf   : Memory
  /-- `RXBUF` (10_state R25) -/
  rxbuf   : Memory
  /-- the command-channel registers (10_state R26 to R31) -/
  cc      : Channel
  /-- `RDY`, the ready latch (10_state R32) -/
  rdy     : Bool
  /-- `MSGID`, the message-id counter (10_state R33) -/
  msgid   : BitVec 8
  /-- a start pulse not yet taken or dropped (60_exceptions R228) -/
  start   : Bool
  /-- the done line (60_exceptions R228) -/
  done    : Bool
  /-- the display operation in progress, none when none runs -/
  disp    : Option DispRun
  /-- MODEL: the requests the host will still make (30_encoding R83, log 7) -/
  host    : List Request
  /-- MODEL: the input lines before each step to come (log 4) -/
  lines   : List Lines
  /-- MODEL: the bytes the transport presents in each exchange to come (log 4) -/
  answers : List (List Byte)
  /-- MODEL: how many free values have been drawn (log 4) -/
  free    : Nat
  deriving DecidableEq, Repr

/-- A space of which nothing is listed. -/
def Memory.empty : Memory := ⟨[]⟩

/-- The block right after reset, for the configuration it was constructed with (10_state R37, 70_reset_and_hazards R240,
R241). `CC.st`, `CC.wcnt`, `CC.rcnt`, `CC.seq`, `RDY` and `MSGID` have the spec's values; the spec leaves the rest
unspecified and the model names zero (DESIGN CHOICE, unsafe: log 2, log 3). -/
def State.resetOf (c : Config) : State where
  cfg     := c
  req     := { op := 0, x0 := 0, x1 := 0, x2 := 0, x3 := 0, ep := 0, subEn := false, sub := 0, din := .empty, dlen := 0 }
  res     := { st := .ok, rv := 0, dout := .empty, dolen := 0 }
  txbuf   := .empty
  rxbuf   := .empty
  cc      :=
    { st := .idle, kind := .set, phase := .wr, ep := 0, subEn := false, sub := 0,
      want := List.replicate c.pcap 0, wlen := 0, wcnt := 0, rcnt := 0,
      got := List.replicate c.pcap 0, seq := [], mid := 0 }
  rdy     := false
  msgid   := 0
  start   := false
  done    := false
  disp    := none
  host    := []
  lines   := []
  answers := []
  free    := 0

/-- The machine right after reset. -/
def State.reset : State := State.resetOf defaultConfig

end Sys2Proof.Machine
end

