-- ==== Sys2Proof/Machine/Ops.lean ====
section
/-! DEFINITION. The operations every meaning is written over: the byte-addressed spaces (20_memory), the result registers
and `raise` (60_exceptions R222, which is this hardware's taking of an exception), the transport's two capabilities
(41_transport_adapter), the start of a transaction (42_command_channel R135), and reset (70_reset_and_hazards R240). -/

namespace Sys2Proof.Machine

/-! ### Byte sequences -/

/-- `zeros(k)` (00_scope R15). -/
def zeros (k : Nat) : List Byte := List.replicate k 0x00

/-- The first `n` bytes of a sequence, zero-padded to `n`. -/
def fit (n : Nat) (bs : List Byte) : List Byte := bs.take n ++ zeros (n - bs.length)

/-- `pad(bs, width)` (42_command_channel R130). -/
def pad (bs : List Byte) (width : Nat) : List Byte := bs ++ zeros (width - bs.length)

/-! ### Byte-addressed spaces (20_memory R50 to R55) -/

/-- What an unlisted offset reads as. DESIGN CHOICE, unsafe (log 3). -/
def unlistedByte : Byte := 0x00

/-- Read of one byte (20_memory R54). -/
def Memory.read (m : Memory) (a : Nat) : Byte := (m.cells.lookup a).getD unlistedByte

/-- The cells of a byte sequence laid out from offset `a`, byte 0 first (20_memory R52). -/
def cellsFrom : Nat → List Byte → List Host.Cell
  | _, []      => []
  | a, b :: bs => if b = unlistedByte then cellsFrom (a + 1) bs else (a, b) :: cellsFrom (a + 1) bs

/-- A whole-buffer write (20_memory R55): the space holds the sequence from offset 0. -/
def Memory.ofBytes (bs : List Byte) : Memory := ⟨cellsFrom 0 bs⟩

/-- A whole-buffer read of the first `n` bytes (20_memory R55). -/
def Memory.bytes (m : Memory) (n : Nat) : List Byte := (List.range n).map m.read

/-- The canonical form of a space of `size` bytes: offsets strictly rising and below `size`, no entry equal to what an
unlisted offset reads as. -/
def Memory.wf (size : Nat) (m : Memory) : Bool :=
  decide ((m.cells.map Prod.fst).Pairwise (· < ·)) &&
    m.cells.all (fun c => decide (c.1 < size) && c.2 != unlistedByte)

/-! ### Result registers (10_state R22) and `raise` (60_exceptions R222) -/

/-- What happens to a result register: it takes a value, keeps its value, or becomes `any`. -/
inductive Draw (α : Type)
  | val (a : α)
  | keep
  | any
  deriving DecidableEq, Repr

/-- A byte of `DOUT` and the length of it, where a rule leaves them `any` (log 6). -/
def freeBytes (k : Nat) : List Byte :=
  (List.range (Config.freeLen k).toNat).map (Config.freeByte k)

/-- `RV` after a draw. -/
def drawRv (k : Nat) (old : Word) : Draw Word → Word
  | .val w => w
  | .keep  => old
  | .any   => Config.freeWord k

/-- `DOUT` after a draw. -/
def drawDout (k : Nat) (old : Memory) : Draw (List Byte) → Memory
  | .val bs => Memory.ofBytes bs
  | .keep   => old
  | .any    => Memory.ofBytes (freeBytes k)

/-- `DOLEN` after a draw: the length of `DOUT` (10_state R22). -/
def drawDolen (k : Nat) (old : BitVec 8) : Draw (List Byte) → BitVec 8
  | .val bs => BitVec.ofNat 8 bs.length
  | .keep   => old
  | .any    => Config.freeLen k

/-- Write `RV`, `DOUT` and `DOLEN`; `any` draws from the free values at the counter, which moves on. -/
def putResults (rv : Draw Word) (dout : Draw (List Byte)) (s : State) : State :=
  { s with
    res  := { s.res with
      rv    := drawRv s.free s.res.rv rv
      dout  := drawDout s.free s.res.dout dout
      dolen := drawDolen s.free s.res.dolen dout }
    free := s.free + 1 }

/-- The end of an operation (60_exceptions R228): results and `ST` are written and the block raises done. -/
def finish (st : Status) (rv : Draw Word) (dout : Draw (List Byte)) (s : State) : State :=
  let t := putResults rv dout s
  { t with res := { t.res with st := st }, done := true }

/-- `raise <Status>` (60_exceptions R222): `ST` is written; `RV`, `DOUT`, `DOLEN` become `any`; no other state changes.
The machine has no trap: nothing is saved, control goes nowhere, and there is no return (60_exceptions R232). -/
def raise (st : Status) (s : State) : State := finish st .any .any s

/-- The end of an operation that `raise`s or delivers its results. -/
def finishExcept (r : Except Status (Draw Word × Draw (List Byte))) (s : State) : State :=
  match r with
  | .ok (rv, dout) => finish .ok rv dout s
  | .error st      => raise st s

/-- The display operation in progress, if one is, has a set still to start (44_display_operations R206). -/
def setPending : Option DispRun → Bool
  | some ⟨_ :: _, _⟩ => true
  | some ⟨[], _⟩     => false
  | none             => false

/-- The block is busy, from the accepted start until it writes `ST` (60_exceptions R228): a transaction runs, or `CC.st` is
`Idle` between two sets of one display operation (log 10). -/
def State.busy (s : State) : Bool := s.cc.st != .idle || setPending s.disp

/-- A host operation is accepted only by a block that is not busy; a start while busy is not accepted and has no effect
(60_exceptions R228, R229 check 1). -/
def hostOp (f : State → State) (s : State) : Host.Outcome State Fault Refusal :=
  if s.busy = false then .next (f s) else .next s

/-! ### The transport (41_transport_adapter) -/

/-- The bytes the transport presents in the next exchange: any `N` bytes (41_transport_adapter R120, log 4, log 5). -/
def answer (s : State) : List Byte :=
  match s.answers with
  | rx :: _ => fit s.cfg.n rx
  | []      => (List.range s.cfg.n).map (Config.freeRx s.free)

/-- `TXBUF <- tx`, written whole (20_memory R55). -/
def loadTx (tx : List Byte) (s : State) : State := { s with txbuf := Memory.ofBytes tx }

/-- `exchange()` (41_transport_adapter R120): `RXBUF` takes the `N` bytes presented, and `CC.seq` records both frames. -/
def exchange (s : State) : State :=
  { s with
    rxbuf   := Memory.ofBytes (answer s)
    cc      := { s.cc with seq := s.cc.seq ++ [.exch (s.txbuf.bytes s.cfg.n) (answer s)] }
    answers := s.answers.tail
    free    := s.free + 1 }

/-- `wait_for_signal` (41_transport_adapter R122): it returns what the latch holds, clears it in the same step, and
`CC.seq` records the result. -/
def waitForSignal (s : State) : Bool × State :=
  (s.rdy, { s with rdy := false, cc := { s.cc with seq := s.cc.seq ++ [.wait s.rdy] } })

/-- `on_signal` (41_transport_adapter R123): the latch is set, whatever it was, and nothing else changes. -/
def onSignal (s : State) : State := { s with rdy := true }

/-! ### The start of a transaction (42_command_channel R135) -/

/-- `MSGID` at an accepted operation on an endpoint: one more, modulo 256, when the descriptor has `msgid = 1`
(10_state R33, 42_command_channel R135). -/
def nextMsgid (s : State) (ep : BitVec 7) : BitVec 8 :=
  match endpoint? s.cfg ep with
  | some e => if e.msgid then s.msgid + 1 else s.msgid
  | none   => s.msgid

/-- R135 for a `SET` of the payload `want`. `CC.want` is `PCAP` bytes, the payload first (log 17). -/
def beginSet (ep : BitVec 7) (subEn : Bool) (want : List Byte) (s : State) : State :=
  { s with
    cc    := { s.cc with
      st := .sending, kind := .set, phase := .wr, ep := ep, subEn := subEn, sub := s.req.sub,
      want := fit s.cfg.pcap want, wlen := BitVec.ofNat 8 want.length, wcnt := s.cfg.wBudget,
      seq := [], mid := s.msgid }
    msgid := nextMsgid s ep
    done  := false }

/-- R135 for a `GET`. -/
def beginGet (ep : BitVec 7) (subEn : Bool) (s : State) : State :=
  { s with
    cc    := { s.cc with
      st := .sending, kind := .get, phase := .rd, ep := ep, subEn := subEn, sub := s.req.sub,
      rcnt := s.cfg.rBudget, seq := [], mid := s.msgid }
    msgid := nextMsgid s ep
    done  := false }

/-- `CC.st <- st`. -/
def goto (st : SeqState) (s : State) : State := { s with cc := { s.cc with st := st } }

/-! ### Reset (70_reset_and_hazards R240) -/

/-- Reset in any state: the block's state becomes that of `State.resetOf` for the configuration it was constructed with.
The model's own lists and counter stay: they are the world outside the block (log 15). -/
def applyReset (s : State) : State :=
  { State.resetOf s.cfg with host := s.host, lines := s.lines, answers := s.answers, free := s.free }

end Sys2Proof.Machine
end

