-- ==== Sys2Proof/Machine/Operands.lean ====
section
/-! DEFINITION. The operand forms (30_encoding R81): signed scalars, Booleans, byte sequences, and the payloads a
transaction is composed of (42_command_channel R133). -/

namespace Sys2Proof.Machine

/-- `x[i]` in a rule means the signed value of the 16-bit register (10_state R21, 00_scope R16). -/
def signed (w : Word) : Int := w.toInt

/-- A Boolean operand is false when the register is 0 and true otherwise (30_encoding R81). -/
def truth (w : Word) : Bool := w != 0

/-- `zext_16` of a byte, as `RV` receives it (10_state R22). -/
def wordOfByte (b : Byte) : Word := b.setWidth 16

/-- `zext_16` of a flag. -/
def wordOfBool (b : Bool) : Word := if b then 1 else 0

/-- `RV` with a byte in bits 15:8 and another in bits 7:0 (30_encoding R81). -/
def wordOfBytes (hi lo : Byte) : Word := hi ++ lo

/-- `DIN[0 .. DLEN-1]` (10_state R21). -/
def dinBytes (s : State) : List Byte := s.req.din.bytes s.req.dlen.toNat

/-- The payload a set intends: the sub-identifier first for a parameterised endpoint (42_command_channel R133). -/
def wantOf (e : Endpoint) (sub : Byte) (value : List Byte) : List Byte :=
  if e.hasSub then sub :: value else value

/-- The payload of a READ request (42_command_channel R133, R137): the sub-identifier of a parameterised endpoint, else
empty. -/
def readPayload (s : State) : List Byte :=
  match endpoint? s.cfg s.cc.ep with
  | some e => if e.hasSub then [s.cc.sub] else []
  | none   => []

/-- `CC.want[0 .. CC.wlen-1]`, the payload of a WRITE frame (42_command_channel R136). -/
def writePayload (s : State) : List Byte := s.cc.want.take s.cc.wlen.toNat

/-- The width of the endpoint of the transaction (10_state R24). -/
def ccWidth (s : State) : Nat :=
  match endpoint? s.cfg s.cc.ep with
  | some e => e.width
  | none   => 0

end Sys2Proof.Machine
end

