-- ==== Sys2Proof/Machine/Flags.lean ====
section
/-! DEFINITION. The flags of the machine. There are no condition codes (10_state section 6): two flags are state (`RDY`,
`MSGID`, in Ops), the others are results that an operation computes for `RV`: the PM flag of the clock display, the
resolved mode of the duration display, the decimal mode of the temperature display, the trailer flag of `FC.CHECK`, and
the kept `MSGID` of a channel operation. -/

namespace Sys2Proof.Machine

/-- The PM flag (43_value_encoder R184, R185): hours 12 to 23, in 12-hour mode only. -/
def pmFlag (mode12 : Bool) (hour : Int) : Bool := mode12 && decide (12 ≤ hour)

/-- The mode a duration display resolves to (43_value_encoder R188): Automatic is Hour:Minute (0) when the hour component
is nonzero or the minute component is at most -10, else Minute:Second (1). -/
def durMode (hours minutes mode : Int) : Int :=
  if mode = 2 then (if hours ≠ 0 ∨ minutes ≤ -10 then 0 else 1) else mode

/-- The decimal mode of a temperature in tenths (43_value_encoder R192): requested, and strictly between -10 and 100
degrees. -/
def tmpDecimal (t10 : Int) (dec : Bool) : Bool := dec && decide (-100 < t10) && decide (t10 < 1000)

/-- `RV` of a channel operation: the kept `MSGID` in bits 15:8; bits 7:0 are `any` (30_encoding R81, log 12). -/
def channelRv (s : State) : Draw Word :=
  .val (wordOfBytes s.cc.mid ((Config.freeWord s.free).setWidth 8))

end Sys2Proof.Machine
end

