-- ==== Sys2Proof/Machine/FrameCodec.lean ====
section
/-! DEFINITION. The frame codec (40_frame_codec): the checksum, the five pure functions, and the host operations
`FC.*`. A host `FC` operation touches only the result registers (R109). -/

namespace Sys2Proof.Machine

/-- One shift-and-XOR of the table construction (40_frame_codec R100). -/
def crcShift (poly c : Byte) : Byte := if c.getLsbD 7 then (c <<< 1) ^^^ poly else c <<< 1

/-- `k` shifts (40_frame_codec R100). -/
def crcShifts (poly : Byte) : Nat → Byte → Byte
  | 0, c     => c
  | k + 1, c => crcShifts poly k (crcShift poly c)

/-- `CRCTAB[i]` for the polynomial `CRC_POLY` (40_frame_codec R100, 10_state R34): a constant, indexed by a byte. -/
def crcTab (poly i : Byte) : Byte := crcShifts poly 8 i

/-- `checksum(bytes)` (40_frame_codec R101). -/
def crc8 (c : Config) (bs : List Byte) : Byte :=
  bs.foldl (fun r b => crcTab c.crcPoly (r ^^^ b)) c.crcInit ^^^ c.crcXorOut

/-- Bytes 0 to `N-2` of a frame (40_frame_codec R103, 30_encoding R70 R72). -/
def frameBody (c : Config) (write : Bool) (ep : BitVec 7) (pl : List Byte) : List Byte :=
  c.sync :: cmdByte write ep :: pad pl c.pcap

/-- The frame of a payload that fits (40_frame_codec R103, 30_encoding R73). -/
def frameOf (c : Config) (write : Bool) (ep : BitVec 7) (pl : List Byte) : List Byte :=
  frameBody c write ep pl ++ [crc8 c (frameBody c write ep pl)]

/-- `encode(direction, endpoint, payload)` (40_frame_codec R103). -/
def encodeFrame (c : Config) (write : Bool) (ep : BitVec 7) (pl : List Byte) : Except Status (List Byte) :=
  if c.pcap < pl.length then .error .errCap else .ok (frameOf c write ep pl)

/-- `poll_frame()` (40_frame_codec R107, 30_encoding R74). -/
def pollFrame (c : Config) : List Byte := frameOf c false 0x00 []

/-- `f[2 .. N-2]`, the payload region of a frame (40_frame_codec R105). -/
def payloadOf (c : Config) (f : List Byte) : List Byte := (f.drop 2).take c.pcap

/-- `decode(frame)` (40_frame_codec R105): the length is the only thing checked. -/
def decodeFrame (c : Config) (f : List Byte) : Except Status (Byte × List Byte) :=
  if f.length ≠ c.n then .error .errLen else .ok (f.getD 1 0, payloadOf c f)

/-- The trailer of a frame matches (40_frame_codec R108). -/
def trailerOk (c : Config) (f : List Byte) : Bool :=
  crc8 c (f.take (c.n - 1)) == f.getD (c.n - 1) 0

/-- `crc_ok(f)` (40_frame_codec R108). -/
def crcOk (c : Config) (f : List Byte) : Except Status Bool :=
  if f.length ≠ c.n then .error .errLen else .ok (trailerOk c f)

/-! ### The host operations -/

/-- `FC.CRC8` (40_frame_codec R101). -/
def execFcCrc8 (s : State) : Host.Outcome State Fault Refusal :=
  hostOp (fun s => finish .ok (.val (wordOfByte (crc8 s.cfg (dinBytes s)))) .any s) s

/-- `FC.ENCODE` (40_frame_codec R103): `x[0]` true is WRITE. -/
def execFcEncode (s : State) : Host.Outcome State Fault Refusal :=
  hostOp (fun s => finishExcept
    ((encodeFrame s.cfg (truth s.req.x0) s.req.ep (dinBytes s)).map (fun f => (.any, .val f))) s) s

/-- `FC.DECODE` (40_frame_codec R105). -/
def execFcDecode (s : State) : Host.Outcome State Fault Refusal :=
  hostOp (fun s => finishExcept
    ((decodeFrame s.cfg (dinBytes s)).map (fun r => (.val (wordOfByte r.1), .val r.2))) s) s

/-- `FC.POLL` (40_frame_codec R107). -/
def execFcPoll (s : State) : Host.Outcome State Fault Refusal :=
  hostOp (fun s => finish .ok .any (.val (pollFrame s.cfg)) s) s

/-- `FC.CHECK` (40_frame_codec R108). -/
def execFcCheck (s : State) : Host.Outcome State Fault Refusal :=
  hostOp (fun s => finishExcept
    ((crcOk s.cfg (dinBytes s)).map (fun b => (.val (wordOfBool b), .any))) s) s

end Sys2Proof.Machine
end

