-- ==== Sys2Proof/Machine/CommandChannel.lean ====
section
/-! DEFINITION. The host operations of the command channel (42_command_channel R131, R132, R134). -/

namespace Sys2Proof.Machine

/-- Admission of `CC.GET`: checks 1 and 2 (42_command_channel R134). -/
def admitGet (s : State) : Except Status Endpoint :=
  match endpoint? s.cfg s.req.ep with
  | none   => .error .errArg
  | some e => if s.req.subEn ≠ e.hasSub then .error .errArg else .ok e

/-- Admission of `CC.SET`: checks 1 to 4, in that order (42_command_channel R134). The result is the intended payload. -/
def admitSet (s : State) : Except Status (List Byte) :=
  match admitGet s with
  | .error st => .error st
  | .ok e =>
    let want := wantOf e s.req.sub (dinBytes s)
    if s.cfg.pcap < want.length then .error .errCap
    else if e.width < want.length then .error .errArg
    else .ok want

/-- `CC.SET` (42_command_channel R131): admission, then the sequencer. -/
def execCcSet (s : State) : Host.Outcome State Fault Refusal :=
  hostOp (fun s =>
    match admitSet s with
    | .error st => raise st s
    | .ok want  => beginSet s.req.ep s.req.subEn want { s with disp := none }) s

/-- `CC.GET` (42_command_channel R132): admission, then the sequencer. -/
def execCcGet (s : State) : Host.Outcome State Fault Refusal :=
  hostOp (fun s =>
    match admitGet s with
    | .error st => raise st s
    | .ok _     => beginGet s.req.ep s.req.subEn { s with disp := none }) s

end Sys2Proof.Machine
end

