-- ==== Sys2Proof/Machine/ValueEncoder.lean ====
section
/-! DEFINITION. The value encoder (43_value_encoder): pure functions of the operands and of the table `SEG`, and the host
operations `VE.*` that call them. -/

namespace Sys2Proof.Machine

/-! ### Segment bitmasks (30_encoding R85 to R88, 43_value_encoder R163) -/

/-- `DECIMAL`, bit 7 of a segment bitmask (30_encoding R85). -/
def decimal : Byte := 0x80

/-- `SEG[v]`, the digit constants `D0` to `DF` (30_encoding R86). -/
def segDigit (t : SegTable) (v : Nat) : Byte := t.digits.getD v 0

/-- `with_dp(d)` (43_value_encoder R163). -/
def withDp (d : Byte) : Byte := d ||| decimal

/-- `has_dp(d)` (43_value_encoder R163). -/
def hasDp (d : Byte) : Bool := d &&& decimal != 0

/-- `CHR(c)`, the character table (30_encoding R88). -/
def chr (t : SegTable) (c : Byte) : Byte :=
  let n := c.toNat
  if 0x30 ≤ n ∧ n ≤ 0x39 then segDigit t (n - 0x30)
  else if 0x41 ≤ n ∧ n ≤ 0x46 then segDigit t (n - 0x41 + 10)
  else if 0x61 ≤ n ∧ n ≤ 0x66 then segDigit t (n - 0x61 + 10)
  else if n = 0x2D then t.dash
  else if n = 0x5F then t.underscore
  else if n = 0x2E then decimal
  else t.blank

/-- A DisplayValue: four segment bitmasks, `d1` leftmost (00_scope R18). -/
structure Digits where
  d1 : Byte
  d2 : Byte
  d3 : Byte
  d4 : Byte
  deriving DecidableEq, Repr

/-- The digits in the order of `DOUT` and of the payload (20_memory R53). -/
def Digits.toList (d : Digits) : List Byte := [d.d1, d.d2, d.d3, d.d4]

/-- Four bytes as digits. -/
def digitsOf (bs : List Byte) : Digits := ⟨bs.getD 0 0, bs.getD 1 0, bs.getD 2 0, bs.getD 3 0⟩

/-! ### Digits of a number (43_value_encoder R164, R166, R167) -/

/-- `int_to_digits(n)`: the low four decimal digits, most significant first (43_value_encoder R164). -/
def i2d (t : SegTable) (n : Nat) : Digits where
  d4 := segDigit t (n % 10)
  d3 := segDigit t (n / 10 % 10)
  d2 := segDigit t (n / 10 / 10 % 10)
  d1 := segDigit t (n / 10 / 10 / 10 % 10)

/-- `clear_leading_zeros(d1..d4)` (43_value_encoder R166): a leading zero equals `D0` in all eight bits (R167). -/
def clz (t : SegTable) (d : Digits) : Digits :=
  if d.d1 ≠ segDigit t 0 then d
  else if d.d2 ≠ segDigit t 0 then { d with d1 := t.blank }
  else if d.d3 ≠ segDigit t 0 then { d with d1 := t.blank, d2 := t.blank }
  else { d with d1 := t.blank, d2 := t.blank, d3 := t.blank }

/-- Leading zeros are cleared unless they are to be shown. -/
def clzUnless (show_ : Bool) (t : SegTable) (d : Digits) : Digits := if show_ then d else clz t d

/-- The range of every displayed number (43_value_encoder R165). -/
def inRange (n : Int) : Bool := decide (-999 ≤ n) && decide (n ≤ 9999)

/-! ### The displays -/

/-- The integer display (43_value_encoder R168). -/
def intDisplay (t : SegTable) (n : Int) (show_ : Bool) : Except Status Digits :=
  if inRange n then
    let d := clzUnless show_ t (i2d t n.natAbs)
    .ok (if n < 0 then { d with d1 := t.dash } else d)
  else .error .errArg

/-- The decimal point on the digit at position `4-P`, 1-indexed from the left (43_value_encoder R172). -/
def setPoint (p : Nat) (d : Digits) : Digits :=
  match p with
  | 0 => { d with d4 := withDp d.d4 }
  | 1 => { d with d3 := withDp d.d3 }
  | 2 => { d with d2 := withDp d.d2 }
  | _ => { d with d1 := withDp d.d1 }

/-- The fixed-point display: point, then leading zeros, then the dash, which keeps the point under it
(43_value_encoder R172 to R175). -/
def fixDisplay (t : SegTable) (m : Int) (show_ : Bool) (p : Int) : Except Status Digits :=
  if p < 0 ∨ 3 < p then .error .errArg
  else if inRange m then
    let d := clzUnless show_ t (setPoint p.toNat (i2d t m.natAbs))
    .ok (if m < 0 then { d with d1 := t.dash ||| (d.d1 &&& decimal) } else d)
  else .error .errArg

/-- The scan of a string (43_value_encoder R178). `filled` holds the slots filled so far, the latest first. A point merges
into the slot before it when that slot has none; the scan stops once four slots are filled. -/
def strScan (t : SegTable) : List Byte → List Byte → List Byte
  | filled, []      => filled
  | filled, c :: cs =>
    if filled.length = 4 then filled
    else
      match filled with
      | last :: before =>
        if c = 0x2E ∧ hasDp last = false then strScan t (withDp last :: before) cs
        else strScan t (chr t c :: last :: before) cs
      | [] => strScan t [chr t c] cs

/-- The string display: left-aligned, unfilled slots blank (43_value_encoder R178). -/
def strDisplay (t : SegTable) (cs : List Byte) : Digits :=
  let slots := (strScan t [] cs).reverse
  ⟨slots.getD 0 t.blank, slots.getD 1 t.blank, slots.getD 2 t.blank, slots.getD 3 t.blank⟩

/-- The hour shown by the clock display (43_value_encoder R184, R185). -/
def clkHour (mode12 : Bool) (hour : Int) : Int :=
  if mode12 then
    if hour = 0 ∨ hour = 12 then 12 else if hour ≤ 11 then hour else hour - 12
  else hour

/-- The clock display (43_value_encoder R184), with its PM flag. -/
def clkDisplay (t : SegTable) (hour minute : Int) (mode12 pmdp : Bool) : Except Status (Digits × Bool) :=
  if hour < 0 ∨ 23 < hour ∨ minute < 0 ∨ 59 < minute then .error .errArg
  else
    let pm := pmFlag mode12 hour
    let d := i2d t (clkHour mode12 hour * 100 + minute).toNat
    let d := if mode12 ∧ d.d1 = segDigit t 0 then { d with d1 := t.blank } else d
    .ok (if pm ∧ pmdp then { d with d4 := withDp d.d4 } else d, pm)

/-- The display value of a duration in a resolved mode (43_value_encoder R188). -/
def durValue (hours minutes seconds mode : Int) : Int :=
  if mode = 0 then hours * 100 + minutes else minutes * 100 + seconds

/-- The duration display (43_value_encoder R188), with its resolved mode. -/
def durDisplay (t : SegTable) (hours minutes seconds mode : Int) : Except Status (Digits × Int) :=
  if mode < 0 ∨ 2 < mode then .error .errArg
  else
    let m := durMode hours minutes mode
    (intDisplay t (durValue hours minutes seconds m) true).map (fun d => (d, m))

/-- Tenths to whole degrees under `TEMP_ROUND` (43_value_encoder R193). -/
def roundTenths : TempRound → Int → Int
  | .towardZero, t10 => t10.tdiv 10
  | .down, t10       => t10.fdiv 10

/-- The number a temperature display shows (43_value_encoder R192). -/
def tmpValue (r : TempRound) (t10 : Int) (dec : Bool) : Int :=
  if tmpDecimal t10 dec then t10 else roundTenths r t10

/-- The temperature display (43_value_encoder R192 to R194), with its decimal mode. The number takes three digits; `d4` is
blank; leading zeros are always cleared, the last digit never. -/
def tmpDisplay (t : SegTable) (r : TempRound) (t10 : Int) (dec : Bool) : Except Status (Digits × Bool) :=
  if t10 < -990 ∨ 9990 < t10 then .error .errArg
  else
    let dm := tmpDecimal t10 dec
    let v  := tmpValue r t10 dec
    let z  := i2d t v.natAbs
    let e1 := z.d2
    let e2 := if dm then withDp z.d3 else z.d3
    let d1 := if e1 = segDigit t 0 then t.blank else e1
    let d2 := if e1 = segDigit t 0 ∧ e2 = segDigit t 0 then t.blank else e2
    .ok (⟨if v < 0 then t.dash else d1, d2, z.d4, t.blank⟩, dm)

/-! ### The operations on the operand registers (30_encoding R81)

Each is shared by the `VE` operation and the `DISP` operation of the same suffix. -/

/-- What a display leaves for `RV` and `DOUT`. -/
abbrev Shown := Draw Word × Digits

/-- The integer display of the operands `n`, `lz`. -/
def showInt (s : State) : Except Status Shown :=
  (intDisplay s.cfg.seg (signed s.req.x0) (truth s.req.x1)).map (fun d => (.any, d))

/-- The fixed-point display of the operands `m`, `lz`, `P`. -/
def showFix (s : State) : Except Status Shown :=
  (fixDisplay s.cfg.seg (signed s.req.x0) (truth s.req.x1) (signed s.req.x2)).map (fun d => (.any, d))

/-- The string display of `DIN`. -/
def showStr (s : State) : Except Status Shown :=
  .ok (.any, strDisplay s.cfg.seg (dinBytes s))

/-- The clock display of the operands `hour`, `minute`, `mode12`, `pmdp`; `RV` is the PM flag. -/
def showClk (s : State) : Except Status Shown :=
  (clkDisplay s.cfg.seg (signed s.req.x0) (signed s.req.x1) (truth s.req.x2) (truth s.req.x3)).map
    (fun r => (.val (wordOfBool r.2), r.1))

/-- The duration display of the operands `hours`, `minutes`, `seconds`, `mode`; `RV` is the resolved mode. -/
def showDur (s : State) : Except Status Shown :=
  (durDisplay s.cfg.seg (signed s.req.x0) (signed s.req.x1) (signed s.req.x2) (signed s.req.x3)).map
    (fun r => (.val (BitVec.ofInt 16 r.2), r.1))

/-- The temperature display of the operands `t10`, `dec`; `RV` is the decimal mode. -/
def showTmp (s : State) : Except Status Shown :=
  (tmpDisplay s.cfg.seg s.cfg.tempRound (signed s.req.x0) (truth s.req.x1)).map
    (fun r => (.val (wordOfBool r.2), r.1))

/-- The end of a `VE` operation that shows digits: `DOUT` = the digits, `DOLEN = 4` (30_encoding R81). -/
def finishShown (r : Except Status Shown) (s : State) : State :=
  finishExcept (r.map (fun p => (p.1, .val p.2.toList))) s

/-! ### The host operations -/

/-- `VE.DIG` (43_value_encoder R161). -/
def execVeDig (s : State) : Host.Outcome State Fault Refusal :=
  hostOp (fun s =>
    let v := signed s.req.x0
    if v < 0 ∨ 9 < v then raise .errArg s
    else finish .ok (.val (wordOfByte (segDigit s.cfg.seg v.toNat))) .any s) s

/-- `VE.CHR` (43_value_encoder R162). -/
def execVeChr (s : State) : Host.Outcome State Fault Refusal :=
  hostOp (fun s =>
    let c := signed s.req.x0
    if c < 0 ∨ 255 < c then raise .errArg s
    else finish .ok (.val (wordOfByte (chr s.cfg.seg (BitVec.ofInt 8 c)))) .any s) s

/-- `VE.I2D` (43_value_encoder R164). -/
def execVeI2d (s : State) : Host.Outcome State Fault Refusal :=
  hostOp (fun s =>
    let n := signed s.req.x0
    if n < 0 then raise .errArg s
    else finish .ok .any (.val (i2d s.cfg.seg n.toNat).toList) s) s

/-- `VE.CLZ` (43_value_encoder R166). -/
def execVeClz (s : State) : Host.Outcome State Fault Refusal :=
  hostOp (fun s =>
    if s.req.dlen ≠ 4 then raise .errLen s
    else finish .ok .any (.val (clz s.cfg.seg (digitsOf (dinBytes s))).toList) s) s

/-- `VE.INT` (43_value_encoder R168). -/
def execVeInt (s : State) : Host.Outcome State Fault Refusal :=
  hostOp (fun s => finishShown (showInt s) s) s

/-- `VE.FIX` (43_value_encoder R172). -/
def execVeFix (s : State) : Host.Outcome State Fault Refusal :=
  hostOp (fun s => finishShown (showFix s) s) s

/-- `VE.STR` (43_value_encoder R178). -/
def execVeStr (s : State) : Host.Outcome State Fault Refusal :=
  hostOp (fun s => finishShown (showStr s) s) s

/-- `VE.CLK` (43_value_encoder R184). -/
def execVeClk (s : State) : Host.Outcome State Fault Refusal :=
  hostOp (fun s => finishShown (showClk s) s) s

/-- `VE.DUR` (43_value_encoder R188). -/
def execVeDur (s : State) : Host.Outcome State Fault Refusal :=
  hostOp (fun s => finishShown (showDur s) s) s

/-- `VE.TMP` (43_value_encoder R192). -/
def execVeTmp (s : State) : Host.Outcome State Fault Refusal :=
  hostOp (fun s => finishShown (showTmp s) s) s

end Sys2Proof.Machine
end

