-- ==== Sys2Proof/Machine/Display.lean ====
section
/-! DEFINITION. The display-value operations (44_display_operations): a value encoding, then one or three sets. -/

namespace Sys2Proof.Machine

/-- The start of one set of a display operation, `CC.SET(EP = ep, SUB_EN = 0, DIN = value)` (44_display_operations R200,
R206). Its admission cannot fail on a legal configuration (R200), so it goes straight to R135 (log 25). -/
def beginDispSet (r : SetReq) (s : State) : State := beginSet r.ep false r.value s

/-- The step from `Idle` that starts the next set of a display operation (44_display_operations R206, 42_command_channel
R135): the operation's own `CC.SET`, admitted in `Idle` like the host's. -/
def stepNextSet (s : State) : State :=
  match s.disp with
  | some ⟨r :: rest, allOk⟩ => beginDispSet r { s with disp := some ⟨rest, allOk⟩ }
  | _                       => s

/-- The common shape of `DISP.X` (44_display_operations R200): the module check, the encoding, which may raise, then
`DOUT`, `DOLEN` and `RV`, then the set of DisplayValue; `more` are the sets that follow it. -/
def dispOp (r : Except Status Shown) (more : List SetReq) (s : State) : State :=
  if s.cfg.moduleType ≠ .sevenSegment then raise .errArg s
  else
    match r with
    | .error st => raise st s
    | .ok (rv, d) =>
      beginDispSet ⟨0x01, d.toList⟩
        { putResults rv (.val d.toList) s with disp := some ⟨more, true⟩ }

/-- `DISP.INT` (44_display_operations R201). -/
def execDispInt (s : State) : Host.Outcome State Fault Refusal :=
  hostOp (fun s => dispOp (showInt s) [] s) s

/-- `DISP.FIX` (44_display_operations R202). -/
def execDispFix (s : State) : Host.Outcome State Fault Refusal :=
  hostOp (fun s => dispOp (showFix s) [] s) s

/-- `DISP.STR` (44_display_operations R203). -/
def execDispStr (s : State) : Host.Outcome State Fault Refusal :=
  hostOp (fun s => dispOp (showStr s) [] s) s

/-- `DISP.CLK` (44_display_operations R204). -/
def execDispClk (s : State) : Host.Outcome State Fault Refusal :=
  hostOp (fun s => dispOp (showClk s) [] s) s

/-- `DISP.DUR` (44_display_operations R205). -/
def execDispDur (s : State) : Host.Outcome State Fault Refusal :=
  hostOp (fun s => dispOp (showDur s) [] s) s

/-- The two indicator sets that follow the digits of a temperature: apostrophe on, colon off
(44_display_operations R206). -/
def tmpIndicators : List SetReq := [⟨0x04, [0x01]⟩, ⟨0x03, [0x00]⟩]

/-- `DISP.TMP` (44_display_operations R206). -/
def execDispTmp (s : State) : Host.Outcome State Fault Refusal :=
  hostOp (fun s => dispOp (showTmp s) tmpIndicators s) s

end Sys2Proof.Machine
end

