-- ==== Sys2Proof/Machine/Frames.lean ====
section
/-! DEFINITION. The frames the sequencer transmits: the steps of 42_command_channel R136 (WRITE), R137 (READ) and R140
(poll), each one exchange. A frame's meaning is the step that sends it; where the sequencer has no such step the answer
is a refusal by name (R147: "a pair not listed has no step", log 9). -/

namespace Sys2Proof.Machine

/-- State `Sending`, `CC.phase = WR` (42_command_channel R136): encode, exchange, a fresh read budget, then the READ. -/
def stepWrite (s : State) : State :=
  let t := exchange (loadTx (frameOf s.cfg true s.cc.ep (writePayload s)) s)
  { t with cc := { t.cc with rcnt := t.cfg.rBudget, phase := .rd } }

/-- State `Sending`, `CC.phase = RD` (42_command_channel R137): encode, exchange, then wait. -/
def stepRead (s : State) : State :=
  goto .awaitingSignal (exchange (loadTx (frameOf s.cfg false s.cc.ep (readPayload s)) s))

/-- State `Polling` (42_command_channel R140): the poll frame is exchanged for the response. -/
def stepPoll (s : State) : State :=
  goto .validating (exchange (loadTx (pollFrame s.cfg) s))

/-- The sequencer is about to send the frame of this direction and endpoint (42_command_channel R147). -/
def sends (m : ModuleType) (ph : Phase) (ep : BitVec 7) (s : State) : Bool :=
  s.cfg.moduleType == m && s.cc.st == .sending && s.cc.phase == ph && s.cc.ep == ep

/-- A WRITE frame row of the frame opcode map (30_encoding R76). -/
def writeFrame (m : ModuleType) (ep : BitVec 7) (s : State) : Host.Outcome State Fault Refusal :=
  if sends m .wr ep s then .next (stepWrite s) else .refused .noStep

/-- A READ frame row of the frame opcode map (30_encoding R76). -/
def readFrame (m : ModuleType) (ep : BitVec 7) (s : State) : Host.Outcome State Fault Refusal :=
  if sends m .rd ep s then .next (stepRead s) else .refused .noStep

/-- `POLL`. -/
def execPoll (s : State) : Host.Outcome State Fault Refusal :=
  if s.cc.st = .polling then .next (stepPoll s) else .refused .noStep

/-- `RD.DisplayValue`. -/
def execRdDisplayValue (s : State) : Host.Outcome State Fault Refusal := readFrame .sevenSegment 0x01 s
/-- `RD.Brightness`. -/
def execRdBrightness (s : State) : Host.Outcome State Fault Refusal := readFrame .sevenSegment 0x02 s
/-- `RD.Colon`. -/
def execRdColon (s : State) : Host.Outcome State Fault Refusal := readFrame .sevenSegment 0x03 s
/-- `RD.Apostrophe`. -/
def execRdApostrophe (s : State) : Host.Outcome State Fault Refusal := readFrame .sevenSegment 0x04 s
/-- `WR.DisplayValue`. -/
def execWrDisplayValue (s : State) : Host.Outcome State Fault Refusal := writeFrame .sevenSegment 0x01 s
/-- `WR.Brightness`. -/
def execWrBrightness (s : State) : Host.Outcome State Fault Refusal := writeFrame .sevenSegment 0x02 s
/-- `WR.Colon`. -/
def execWrColon (s : State) : Host.Outcome State Fault Refusal := writeFrame .sevenSegment 0x03 s
/-- `WR.Apostrophe`. -/
def execWrApostrophe (s : State) : Host.Outcome State Fault Refusal := writeFrame .sevenSegment 0x04 s
/-- `RD.Color`. -/
def execRdColor (s : State) : Host.Outcome State Fault Refusal := readFrame .character 0x01 s
/-- `RD.RawPassthrough`. -/
def execRdRawPassthrough (s : State) : Host.Outcome State Fault Refusal := readFrame .character 0x02 s
/-- `RD.Line`. -/
def execRdLine (s : State) : Host.Outcome State Fault Refusal := readFrame .character 0x03 s
/-- `RD.CustomCharacter`. -/
def execRdCustomCharacter (s : State) : Host.Outcome State Fault Refusal := readFrame .character 0x04 s
/-- `WR.Color`. -/
def execWrColor (s : State) : Host.Outcome State Fault Refusal := writeFrame .character 0x01 s
/-- `WR.RawPassthrough`. -/
def execWrRawPassthrough (s : State) : Host.Outcome State Fault Refusal := writeFrame .character 0x02 s
/-- `WR.Line`. -/
def execWrLine (s : State) : Host.Outcome State Fault Refusal := writeFrame .character 0x03 s
/-- `WR.CustomCharacter`. -/
def execWrCustomCharacter (s : State) : Host.Outcome State Fault Refusal := writeFrame .character 0x04 s

end Sys2Proof.Machine
end

