-- ==== Sys2Proof/Machine/Dispatch.lean ====
section
/-! DEFINITION. One arm per instruction, each one direct call of its meaning. -/

namespace Sys2Proof.Machine

/-- The meaning of an instruction. -/
def exec (i : Instr) (s : State) : Host.Outcome State Fault Refusal :=
  match i with
  | .fcCrc8 => Sys2Proof.Machine.execFcCrc8 s
  | .fcEncode => Sys2Proof.Machine.execFcEncode s
  | .fcDecode => Sys2Proof.Machine.execFcDecode s
  | .fcPoll => Sys2Proof.Machine.execFcPoll s
  | .fcCheck => Sys2Proof.Machine.execFcCheck s
  | .ccSet => Sys2Proof.Machine.execCcSet s
  | .ccGet => Sys2Proof.Machine.execCcGet s
  | .veDig => Sys2Proof.Machine.execVeDig s
  | .veChr => Sys2Proof.Machine.execVeChr s
  | .veI2d => Sys2Proof.Machine.execVeI2d s
  | .veClz => Sys2Proof.Machine.execVeClz s
  | .veInt => Sys2Proof.Machine.execVeInt s
  | .veFix => Sys2Proof.Machine.execVeFix s
  | .veStr => Sys2Proof.Machine.execVeStr s
  | .veClk => Sys2Proof.Machine.execVeClk s
  | .veDur => Sys2Proof.Machine.execVeDur s
  | .veTmp => Sys2Proof.Machine.execVeTmp s
  | .dispInt => Sys2Proof.Machine.execDispInt s
  | .dispFix => Sys2Proof.Machine.execDispFix s
  | .dispStr => Sys2Proof.Machine.execDispStr s
  | .dispClk => Sys2Proof.Machine.execDispClk s
  | .dispDur => Sys2Proof.Machine.execDispDur s
  | .dispTmp => Sys2Proof.Machine.execDispTmp s
  | .poll => Sys2Proof.Machine.execPoll s
  | .rdDisplayValue => Sys2Proof.Machine.execRdDisplayValue s
  | .rdBrightness => Sys2Proof.Machine.execRdBrightness s
  | .rdColon => Sys2Proof.Machine.execRdColon s
  | .rdApostrophe => Sys2Proof.Machine.execRdApostrophe s
  | .wrDisplayValue => Sys2Proof.Machine.execWrDisplayValue s
  | .wrBrightness => Sys2Proof.Machine.execWrBrightness s
  | .wrColon => Sys2Proof.Machine.execWrColon s
  | .wrApostrophe => Sys2Proof.Machine.execWrApostrophe s
  | .rdColor => Sys2Proof.Machine.execRdColor s
  | .rdRawPassthrough => Sys2Proof.Machine.execRdRawPassthrough s
  | .rdLine => Sys2Proof.Machine.execRdLine s
  | .rdCustomCharacter => Sys2Proof.Machine.execRdCustomCharacter s
  | .wrColor => Sys2Proof.Machine.execWrColor s
  | .wrRawPassthrough => Sys2Proof.Machine.execWrRawPassthrough s
  | .wrLine => Sys2Proof.Machine.execWrLine s
  | .wrCustomCharacter => Sys2Proof.Machine.execWrCustomCharacter s

end Sys2Proof.Machine
end

