-- ==== Sys2Proof/Machine/Fetch.lean ====
section
/-! DEFINITION. Where the block's next instruction comes from. The block fetches no instruction from a memory (20_memory
R60): while it is not busy the instruction is the host operation in `OP` (30_encoding R80); in the states that send a
frame it is the frame about to be sent (30_encoding R76). -/

namespace Sys2Proof.Machine

/-- The bytes of the instruction the block would run next; none in the states that run no instruction. -/
def fetchBytes (s : State) : List Byte :=
  match s.cc.st, s.cc.phase with
  | .idle, _      => if setPending s.disp then [] else [s.req.op]
  | .sending, .wr => frameOf s.cfg true s.cc.ep (writePayload s)
  | .sending, .rd => frameOf s.cfg false s.cc.ep (readPayload s)
  | .polling, _   => pollFrame s.cfg
  | _, _          => []

/-- The instruction the block would run next. -/
def fetch (s : State) : Except Reject Instr := decode s.cfg.moduleType (fetchBytes s)

/-- The host's part of the handshake (60_exceptions R228): it writes the request registers, every one of them (those the
request does not name with zero: log 33), and pulses start. `DIN` holds at most 255 bytes, which is what `DLEN` can count
(10_state R21). -/
def placeRequest (r : Request) (s : State) : State :=
  { s with
    req :=
      { op := r.op, x0 := r.x0, x1 := r.x1, x2 := r.x2, x3 := r.x3, ep := r.ep, subEn := r.subEn, sub := r.sub,
        din := Memory.ofBytes (r.din.take 255), dlen := BitVec.ofNat 8 (r.din.take 255).length }
    start := true }

/-- What the input lines carry before this step: the listed entry, else a ready edge or none, freely, and no reset
(41_transport_adapter R123, log 4, log 15). -/
def linesNow (s : State) : Lines :=
  match s.lines with
  | l :: _ => l
  | []     => ⟨Config.freeReady s.free, false⟩

/-- The environment's move before a step (42_command_channel R139): a ready edge performs `on_signal`. -/
def sample (s : State) : State :=
  { s with
    rdy   := (if (linesNow s).ready then onSignal s else s).rdy
    lines := s.lines.tail
    free  := s.free + 1 }

/-- The start pulse is taken, or dropped when the block is busy (60_exceptions R228). -/
def takeStart (s : State) : State := { s with start := false }

/-- The block at rest (42_command_channel R135: in `Idle` with no request the sequencer takes no step): the host may
place its next request. -/
def stepAtRest (s : State) : State :=
  match s.host with
  | []      => s
  | r :: rs => placeRequest r { s with host := rs }

end Sys2Proof.Machine
end

