-- ==== Sys2Proof/Machine/Sequencer.lean ====
section
/-! DEFINITION. The steps of the sequencer that send no frame (42_command_channel R138, R141 to R146). Every transaction
ends in `Idle`, that of a display operation too (44_display_operations R206). -/

namespace Sys2Proof.Machine

/-- State `AwaitingSignal` (42_command_channel R138). -/
def stepAwait (s : State) : State :=
  goto (if (waitForSignal s).1 then .polling else .retryInner) (waitForSignal s).2

/-- The command byte a response must carry, `READ|endpoint` (42_command_channel R141). -/
def expectedCmd (s : State) : Byte := cmdByte false s.cc.ep

/-- The endpoint of the transaction is parameterised (10_state R24). -/
def ccHasSub (s : State) : Bool :=
  match endpoint? s.cfg s.cc.ep with
  | some e => e.hasSub
  | none   => false

/-- `accept(RXBUF)` (42_command_channel R141). -/
def accept (s : State) : Bool :=
  (!s.cfg.rxCrcCheck || trailerOk s.cfg (s.rxbuf.bytes s.cfg.n)) &&
    s.rxbuf.read s.cfg.cmdOffset.toNat == expectedCmd s &&
    (!ccHasSub s || s.rxbuf.read 2 == s.cc.sub)

/-- The offsets the validation reads lie inside `RXBUF` (20_memory R54). -/
def responseInside (s : State) : Bool :=
  decide (2 < s.cfg.n) && decide (s.cfg.cmdOffset.toNat < s.cfg.n)

/-- Set step 3 (42_command_channel R142): the first `width` bytes of the response equal the intended value, zero-padded. -/
def readBackEqual (s : State) : Bool :=
  s.cc.got.take (ccWidth s) == pad (writePayload s) (ccWidth s)

/-- `CC.got <- RXBUF[2 .. N-2]` (42_command_channel R141). -/
def takeResponse (s : State) : State :=
  { s with cc := { s.cc with got := payloadOf s.cfg (s.rxbuf.bytes s.cfg.n) } }

/-- Where a validated response leads (42_command_channel R141, R142). -/
def afterAccept (s : State) : SeqState :=
  match s.cc.kind with
  | .get => .success
  | .set => if readBackEqual s then .success else .retryOuter

/-- State `Validating` (42_command_channel R141, R142). -/
def stepValidate (s : State) : Host.Outcome State Fault Refusal :=
  if responseInside s then
    .next (if accept s then goto (afterAccept (takeResponse s)) (takeResponse s) else goto .retryInner s)
  else .fault .bufferOffset

/-- `CC.rcnt <- CC.rcnt - 1`. -/
def decRcnt (s : State) : State := { s with cc := { s.cc with rcnt := s.cc.rcnt - 1 } }

/-- `CC.wcnt <- CC.wcnt - 1`. -/
def decWcnt (s : State) : State := { s with cc := { s.cc with wcnt := s.cc.wcnt - 1 } }

/-- `CC.phase <- ph`, next state `Sending`. -/
def sendAgain (ph : Phase) (s : State) : State := { s with cc := { s.cc with phase := ph, st := .sending } }

/-- State `RetryInner` (42_command_channel R143). -/
def stepRetryInner (s : State) : State :=
  if s.cc.rcnt - 1 ≠ 0 then sendAgain .rd (decRcnt s)
  else
    match s.cc.kind with
    | .get => goto .failed (decRcnt s)
    | .set => goto .retryOuter (decRcnt s)

/-- State `RetryOuter` (42_command_channel R144). -/
def stepRetryOuter (s : State) : State :=
  if s.cc.wcnt - 1 ≠ 0 then sendAgain .wr (decWcnt s) else goto .failed (decWcnt s)

/-- The end of a `GET` (42_command_channel R145, R146): the host is released. -/
def endGet (ok : Bool) (s : State) : State :=
  goto .idle
    (if ok then finish .ok (channelRv s) (.val (s.cc.got.take (ccWidth s))) s
     else finish .fail (channelRv s) .any s)

/-- The end of a `SET` that the host asked for (42_command_channel R145, R146): `DOUT` and `DOLEN` are not written. -/
def endHostSet (ok : Bool) (s : State) : State :=
  goto .idle (finish (if ok then .ok else .fail) (channelRv s) .keep s)

/-- The end of the last set of a display operation (44_display_operations R200, R206): `DOUT` keeps the digits; `RV` keeps
what the encoding left when every set was `OK`, and is `any` otherwise (log 11). -/
def endDisp (allOk : Bool) (s : State) : State :=
  goto .idle
    { finish (if allOk then .ok else .fail) (if allOk then .keep else .any) .keep s with disp := none }

/-- The end of a set of a display operation that has sets still to start: next state `Idle` (42_command_channel R145,
R146). Its status joins that of the earlier sets; the operation goes on, so neither `ST` nor done is written
(44_display_operations R206, 60_exceptions R228, log 10). -/
def endDispSet (pending : List SetReq) (allOk : Bool) (s : State) : State :=
  goto .idle { s with disp := some ⟨pending, allOk⟩ }

/-- The end of a `SET`: the host's, or one of a display operation (42_command_channel R145, R146, 44_display_operations
R206: all sets are performed whatever the earlier ones returned). -/
def endSet (ok : Bool) (s : State) : State :=
  match s.disp with
  | none => endHostSet ok s
  | some d =>
    match d.pending with
    | []        => endDisp (d.allOk && ok) s
    | r :: rest => endDispSet (r :: rest) (d.allOk && ok) s

/-- States `Success` and `Failed` (42_command_channel R145, R146). -/
def stepEnd (ok : Bool) (s : State) : State :=
  match s.cc.kind with
  | .get => endGet ok s
  | .set => endSet ok s

end Sys2Proof.Machine
end

