-- ==== Sys2Proof/Machine/Block.lean ====
section
/-! DEFINITION. The block's own step in the state it is in (42_command_channel R147). -/

namespace Sys2Proof.Machine

/-- The instruction the block would run next is run; a reserved operation code raises `ERR_OP` (60_exceptions R224), and a
frame outside the frame opcode map is refused by name. -/
def runFetched (s : State) : Host.Outcome State Fault Refusal :=
  match fetch s with
  | .ok i => exec i s
  | .error _ => if s.cc.st = .idle then .next (raise .errOp s) else .refused .unlistedFrame

/-- The block's own step in the state it is in (42_command_channel R135 to R147). -/
def blockStep (s : State) : Host.Outcome State Fault Refusal :=
  match s.cc.st with
  | .idle           =>
    if setPending s.disp then .next (stepNextSet (takeStart s))
    else if s.start then runFetched (takeStart s)
    else .next (stepAtRest s)
  | .sending        => runFetched (takeStart s)
  | .polling        => runFetched (takeStart s)
  | .awaitingSignal => .next (stepAwait (takeStart s))
  | .validating     => stepValidate (takeStart s)
  | .retryInner     => .next (stepRetryInner (takeStart s))
  | .retryOuter     => .next (stepRetryOuter (takeStart s))
  | .success        => .next (stepEnd true (takeStart s))
  | .failed         => .next (stepEnd false (takeStart s))

end Sys2Proof.Machine
end

