-- ==== Sys2Proof/Machine/Step.lean ====
section
/-! DEFINITION. One step of the machine: the input lines are sampled, then the block takes the step of its state
(Machine/Block.lean). -/

namespace Sys2Proof.Machine

/-- One step: the lines are sampled; reset wins (70_reset_and_hazards R240); else the block steps. -/
def step (s : State) : Host.Outcome State Fault Refusal :=
  if (linesNow s).reset then .next (applyReset (sample s)) else blockStep (sample s)

/-- The next entry of the input lines carries no reset. -/
def noResetNext : List Lines → List Lines
  | []      => []
  | l :: ls => { l with reset := false } :: ls

/-- The instruction of a table word stands where `step` fetches its next instruction (log 7). A host operation: the block
idle with no display operation in progress, the code in `OP`, start pulsed. A frame: the sequencer about to send it, its
direction in `CC.phase` and its endpoint in `CC.ep`; the poll frame: `CC.st = Polling`. The module type is the state's own
(log 8). A word that is no frame has no place to stand. The next step carries no reset. -/
def State.withFetchWord (s : State) (nbits w : Nat) : State :=
  let s := { s with lines := noResetNext s.lines }
  match tableBytes nbits w with
  | [op] => { s with cc := { s.cc with st := .idle }, disp := none, req := { s.req with op := op }, start := true }
  | b0 :: b1 :: _ =>
    if b0 = syncByte then
      if b1 = 0 then { s with cc := { s.cc with st := .polling } }
      else { s with cc := { s.cc with
        st := .sending, phase := if b1.getLsbD 7 then .wr else .rd, ep := b1.setWidth 7 } }
    else s
  | [] => s

end Sys2Proof.Machine
end

