-- ==== Sys2Proof/Machine/Pseudo.lean ====
section
/-! DEFINITION. The pseudo-operations (30_encoding R84): each is one host operation with fixed fields, so each is a
request. What the host checks or computes before a request is its own (60_exceptions R225).

Two points the spec leaves open are the model's choice. DESIGN CHOICE, unsafe (log 32): an argument that does not fit the
16-bit register it is sent in (10_state R21) is wrapped modulo 2^16 (`operand`), so `SetValue 65536` is sent as 0. DESIGN
CHOICE, unsafe (log 33): a request register that the expansion does not fix (`SUB` where `SUB_EN = 0`, `x[i]` and `EP` of
an operation that does not read them) is written 0, the default of `Request`. -/

namespace Sys2Proof.Machine

/-- The content of a scalar request register for an argument of the host: the argument modulo 2^16. The spec gives the range
of the register (10_state R21) and does not say what is sent for an argument outside it. DESIGN CHOICE, unsafe (log 32). -/
def operand (v : Int) : Word := BitVec.ofInt 16 v

/-- `CC.SET` of an endpoint without a sub-identifier; `SUB` and `x[0]` to `x[3]` are written 0 (log 33). -/
def setRequest (ep : BitVec 7) (value : List Byte) : Request := { op := 0x20, ep := ep, din := value }

/-- `CC.GET` of an endpoint without a sub-identifier; `SUB`, `DIN` and `x[0]` to `x[3]` are written 0 (log 33). -/
def getRequest (ep : BitVec 7) : Request := { op := 0x21, ep := ep }

/-- `on`: `0x01` for true and `0x00` for false. -/
def onByte (on : Bool) : Byte := if on then 0x01 else 0x00

/-- `SetDisplayValue d1,d2,d3,d4`. -/
def setDisplayValue (d1 d2 d3 d4 : Byte) : Request := setRequest 0x01 [d1, d2, d3, d4]
/-- `GetDisplayValue`. -/
def getDisplayValue : Request := getRequest 0x01
/-- `SetBrightness b`, the byte already encoded. -/
def setBrightnessByte (b : Byte) : Request := setRequest 0x02 [b]
/-- `SetBrightness` of a level: the host refuses a level outside 0.0 to 1.0 and encodes the others by `BRIGHT_ENC`
(60_exceptions R225, log 31). -/
def setBrightness (level : Rat) : Option Request :=
  if 0 ≤ level ∧ level ≤ 1 then some (setBrightnessByte (Config.brightEnc level)) else none
/-- `GetBrightness`. -/
def getBrightness : Request := getRequest 0x02
/-- `SetColon on`. -/
def setColon (on : Bool) : Request := setRequest 0x03 [onByte on]
/-- `GetColon`. -/
def getColon : Request := getRequest 0x03
/-- `SetApostrophe on`. -/
def setApostrophe (on : Bool) : Request := setRequest 0x04 [onByte on]
/-- `GetApostrophe`. -/
def getApostrophe : Request := getRequest 0x04

/-- `SetValue n` of an integer; beyond 16 bits it wraps (log 32). -/
def setValueInt (n : Int) (showZeros : Bool) : Request :=
  { op := 0x40, x0 := operand n, x1 := wordOfBool showZeros }
/-- `SetValue v, P` of a value the host has scaled by `10^P` (43_value_encoder R171, 60_exceptions R225); a scaled value or a
place count beyond 16 bits wraps (log 32). -/
def setValueFix (m : Int) (showZeros : Bool) (p : Nat) : Request :=
  { op := 0x41, x0 := operand m, x1 := wordOfBool showZeros, x2 := operand p }
/-- `SetValue "text"`. -/
def setValueText (text : List Byte) : Request := { op := 0x42, din := text }
/-- `SetValue time`; an hour or a minute beyond 16 bits wraps (log 32). -/
def setValueTime (hour minute : Int) (mode12 pmdp : Bool) : Request :=
  { op := 0x43, x0 := operand hour, x1 := operand minute, x2 := wordOfBool mode12,
    x3 := wordOfBool pmdp }
/-- `SetValue duration`; a component or a mode number beyond 16 bits wraps (log 32). -/
def setValueDuration (hours minutes seconds : Int) (mode : Nat) : Request :=
  { op := 0x44, x0 := operand hours, x1 := operand minutes, x2 := operand seconds,
    x3 := operand mode }
/-- `SetTemperature t`, in tenths (43_value_encoder R193); beyond 16 bits it wraps (log 32). -/
def setTemperature (t10 : Int) (dec : Bool) : Request :=
  { op := 0x45, x0 := operand t10, x1 := wordOfBool dec }

/-- `SetColor`; the payload is open (character module). -/
def setColor (payload : List Byte) : Request := setRequest 0x01 payload
/-- `GetColor`. -/
def getColor : Request := getRequest 0x01
/-- `RawPassthrough`; the payload is open (character module). -/
def rawPassthrough (payload : List Byte) : Request := setRequest 0x02 payload
/-- `SetLine line, text`. -/
def setLine (line : Byte) (text : List Byte) : Request :=
  { op := 0x20, ep := 0x03, subEn := true, sub := line, din := text }
/-- `GetLine line`. -/
def getLine (line : Byte) : Request := { op := 0x21, ep := 0x03, subEn := true, sub := line }
/-- `SetCustomCharacter slot`. -/
def setCustomCharacter (slot : Byte) (payload : List Byte) : Request :=
  { op := 0x20, ep := 0x04, subEn := true, sub := slot, din := payload }
/-- `GetCustomCharacter slot`. -/
def getCustomCharacter (slot : Byte) : Request := { op := 0x21, ep := 0x04, subEn := true, sub := slot }

end Sys2Proof.Machine
end

