-- ==== Sys2Proof/Safety.lean ====
section
/-! DEFINITION. What claims are stated in: the frame predicates, the invariant of every reachable state (10_state R38), the
counts over `CC.seq` (42_command_channel R149), and the measure that every transaction lowers. -/

namespace Sys2Proof.Machine

/-! ### Frames -/

/-- Everything but the result registers, the done line and the counter of free values is as before: what a host `FC` or
`VE` operation and a `raise` leave (40_frame_codec R109, 60_exceptions R222). Each byte of each space is read. -/
structure OnlyResults (s t : State) : Prop where
  cfg     : t.cfg = s.cfg
  req     : t.req = s.req
  din     : ∀ a, t.req.din.read a = s.req.din.read a
  txbuf   : ∀ a, t.txbuf.read a = s.txbuf.read a
  rxbuf   : ∀ a, t.rxbuf.read a = s.rxbuf.read a
  cc      : t.cc = s.cc
  rdy     : t.rdy = s.rdy
  msgid   : t.msgid = s.msgid
  start   : t.start = s.start
  disp    : t.disp = s.disp
  host    : t.host = s.host
  lines   : t.lines = s.lines
  answers : t.answers = s.answers

/-- Everything but the command-channel registers, `MSGID`, the display progress, the done line, the result registers and
the counter of free values is as before: what the start of a transaction leaves (42_command_channel R135). -/
structure OnlyChannel (s t : State) : Prop where
  cfg     : t.cfg = s.cfg
  req     : t.req = s.req
  din     : ∀ a, t.req.din.read a = s.req.din.read a
  txbuf   : ∀ a, t.txbuf.read a = s.txbuf.read a
  rxbuf   : ∀ a, t.rxbuf.read a = s.rxbuf.read a
  rdy     : t.rdy = s.rdy
  start   : t.start = s.start
  host    : t.host = s.host
  lines   : t.lines = s.lines
  answers : t.answers = s.answers

/-- Everything but the two frame buffers, the channel's sequencer registers and the transport's answers is as before: what
a frame's step leaves (42_command_channel R136, R137, R140). -/
structure OnlyExchange (s t : State) : Prop where
  cfg   : t.cfg = s.cfg
  req   : t.req = s.req
  res   : t.res = s.res
  din   : ∀ a, t.req.din.read a = s.req.din.read a
  dout  : ∀ a, t.res.dout.read a = s.res.dout.read a
  outsideTx : ∀ a, s.cfg.n ≤ a → t.txbuf.read a = s.txbuf.read a
  outsideRx : ∀ a, s.cfg.n ≤ a → t.rxbuf.read a = s.rxbuf.read a
  rdy   : t.rdy = s.rdy
  msgid : t.msgid = s.msgid
  start : t.start = s.start
  done  : t.done = s.done
  disp  : t.disp = s.disp
  host  : t.host = s.host
  lines : t.lines = s.lines
  ep    : t.cc.ep = s.cc.ep
  subEn : t.cc.subEn = s.cc.subEn
  sub   : t.cc.sub = s.cc.sub
  kind  : t.cc.kind = s.cc.kind
  want  : t.cc.want = s.cc.want
  wlen  : t.cc.wlen = s.cc.wlen
  wcnt  : t.cc.wcnt = s.cc.wcnt
  got   : t.cc.got = s.cc.got
  mid   : t.cc.mid = s.cc.mid

/-- Both frame buffers, the request registers, the latch, the message-id counter, the configuration and the world outside
are as before: what every step of the sequencer that sends no frame leaves (42_command_channel R147). -/
structure NoExchange (s t : State) : Prop where
  cfg     : t.cfg = s.cfg
  req     : t.req = s.req
  din     : ∀ a, t.req.din.read a = s.req.din.read a
  txbuf   : ∀ a, t.txbuf.read a = s.txbuf.read a
  rxbuf   : ∀ a, t.rxbuf.read a = s.rxbuf.read a
  host    : t.host = s.host
  answers : t.answers = s.answers

/-- What the steps of the sequencer that send no frame leave of the channel: the transaction they serve (10_state R28,
R29: constant until it ends). -/
structure SameTransaction (s t : State) : Prop where
  kind  : t.cc.kind = s.cc.kind
  ep    : t.cc.ep = s.cc.ep
  subEn : t.cc.subEn = s.cc.subEn
  sub   : t.cc.sub = s.cc.sub
  want  : t.cc.want = s.cc.want
  wlen  : t.cc.wlen = s.cc.wlen
  mid   : t.cc.mid = s.cc.mid
  msgid : t.msgid = s.msgid

/-- `DOUT` holds a byte sequence and `DOLEN` its length (10_state R22). -/
def Delivers (t : State) (bs : List Byte) : Prop :=
  t.res.dolen.toNat = bs.length ∧ t.res.dout.bytes bs.length = bs

/-- The instruction ends with an error of the first tier, which changes nothing but the result registers
(60_exceptions R222). -/
def Raises (i : Instr) (s : State) (st : Status) : Prop :=
  ∃ t, exec i s = .next t ∧ t.res.st = st ∧ t.done = true ∧ OnlyResults s t

/-- The instruction ends `OK` in one step with results as `p` says, and changes nothing but the result registers
(40_frame_codec R109, 70_reset_and_hazards R257). -/
def Returns (i : Instr) (s : State) (p : State → Prop) : Prop :=
  ∃ t, exec i s = .next t ∧ t.res.st = .ok ∧ t.done = true ∧ OnlyResults s t ∧ p t

/-- The start of a set of `value` to the endpoint `ep` (42_command_channel R135), from `s` to `t`. For a set of a display
operation the field `sub` is the model's reading (DEDUCED, unsafe, log 27); `mid` is the model's register (log 30). -/
structure StartsSet (s t : State) (ep : BitVec 7) (subEn : Bool) (value : List Byte) : Prop where
  st    : t.cc.st = .sending
  kind  : t.cc.kind = .set
  phase : t.cc.phase = .wr
  ep    : t.cc.ep = ep
  subEn : t.cc.subEn = subEn
  sub   : t.cc.sub = s.req.sub
  want  : t.cc.want.take value.length = value
  wlen  : t.cc.wlen.toNat = value.length
  wcnt  : t.cc.wcnt = s.cfg.wBudget
  seq   : t.cc.seq = []
  mid   : t.cc.mid = s.msgid
  rcnt  : t.cc.rcnt = s.cc.rcnt
  got   : t.cc.got = s.cc.got

/-- The operands of a display operation are within the ranges of its value encoding (60_exceptions R223). -/
def OperandsInRange (i : Instr) (s : State) : Prop :=
  match i with
  | .dispInt => -999 ≤ s.req.x0.toInt ∧ s.req.x0.toInt ≤ 9999
  | .dispFix => 0 ≤ s.req.x2.toInt ∧ s.req.x2.toInt ≤ 3 ∧ -999 ≤ s.req.x0.toInt ∧ s.req.x0.toInt ≤ 9999
  | .dispClk => 0 ≤ s.req.x0.toInt ∧ s.req.x0.toInt ≤ 23 ∧ 0 ≤ s.req.x1.toInt ∧ s.req.x1.toInt ≤ 59
  | .dispDur =>
    (0 ≤ s.req.x3.toInt ∧ s.req.x3.toInt ≤ 2) ∧
      ((s.req.x3.toInt = 0 ∨ (s.req.x3.toInt = 2 ∧ (s.req.x0.toInt ≠ 0 ∨ s.req.x1.toInt ≤ -10))) →
        -999 ≤ s.req.x0.toInt * 100 + s.req.x1.toInt ∧ s.req.x0.toInt * 100 + s.req.x1.toInt ≤ 9999) ∧
      ((s.req.x3.toInt = 1 ∨ (s.req.x3.toInt = 2 ∧ s.req.x0.toInt = 0 ∧ -10 < s.req.x1.toInt)) →
        -999 ≤ s.req.x1.toInt * 100 + s.req.x2.toInt ∧ s.req.x1.toInt * 100 + s.req.x2.toInt ≤ 9999)
  | .dispTmp => -990 ≤ s.req.x0.toInt ∧ s.req.x0.toInt ≤ 9990
  | _ => True

/-- The slots of a string read from the left, `k` of them left to fill (43_value_encoder R178): a point that opens a slot
takes it, a point that follows a character joins it unless that character filled the last slot. -/
def slotsOf (t : SegTable) : Nat → List Byte → List Byte
  | 0, _           => []
  | _ + 1, []      => []
  | 1, c :: _      => [chr t c]
  | k + 2, c :: cs =>
    if c = 0x2E then decimal :: slotsOf t (k + 1) cs
    else
      match cs with
      | []      => [chr t c]
      | d :: ds =>
        if d = 0x2E then (chr t c ||| 0x80) :: slotsOf t (k + 1) ds
        else chr t c :: slotsOf t (k + 1) (d :: ds)

/-! ### The invariant of every reachable state -/

/-- The states in which a get is under way (10_state R38). -/
def SeqState.inGet : SeqState → Bool
  | .sending | .awaitingSignal | .polling | .validating | .retryInner => true
  | .idle | .retryOuter | .success | .failed => false

/-- The invariant: the configuration is legal, every space is in canonical form within its size, the bounds of 10_state
R38 hold, and the sequencer's registers agree with its state. -/
structure Inv (s : State) : Prop where
  cfgWf     : s.cfg.wf = true
  txWf      : s.txbuf.wf s.cfg.n = true
  rxWf      : s.rxbuf.wf s.cfg.n = true
  dinWf     : s.req.din.wf 255 = true
  doutWf    : s.res.dout.wf 255 = true
  wcntLe    : s.cc.wcnt.toNat ≤ 36
  rcntLe    : s.cc.rcnt.toNat ≤ 4
  wlenLe    : s.cc.wlen.toNat ≤ s.cfg.pcap
  wantLen   : s.cc.want.length = s.cfg.pcap
  gotLen    : s.cc.got.length = s.cfg.pcap
  rcntPos   : s.cc.st.inGet = true → s.cc.phase = .rd → 1 ≤ s.cc.rcnt.toNat
  wcntPos   : s.cc.st ≠ .idle → s.cc.st ≠ .failed → s.cc.kind = .set → 1 ≤ s.cc.wcnt.toNat
  phaseRd   : s.cc.st ≠ .idle → s.cc.st ≠ .sending → s.cc.phase = .rd
  getPhase  : s.cc.st ≠ .idle → s.cc.kind = .get → s.cc.phase = .rd
  outerSet  : s.cc.st = .retryOuter → s.cc.kind = .set
  epKnown   : s.cc.st ≠ .idle → (endpoint? s.cfg s.cc.ep).isSome = true
  dispIdle  : s.busy = false → s.disp = none
  dispSet   : ∀ d, s.disp = some d → s.cc.kind = .set ∧ s.cfg.moduleType = .sevenSegment ∧
                ∀ r ∈ d.pending, (endpoint? s.cfg r.ep).isSome = true ∧ r.value.length ≤ 4

/-! ### Counts over `CC.seq` (42_command_channel R149) -/

/-- The command byte of a frame. -/
def cmdOf (f : List Byte) : Byte := f.getD 1 0

/-- A WRITE frame was exchanged: an outer attempt. -/
def isWrite : Event → Bool
  | .exch tx _ => (cmdOf tx).getLsbD 7
  | .wait _    => false

/-- A READ request was exchanged: an inner attempt. -/
def isRead : Event → Bool
  | .exch tx _ => !(cmdOf tx).getLsbD 7 && cmdOf tx != 0
  | .wait _    => false

/-- A poll frame was exchanged. -/
def isPoll : Event → Bool
  | .exch tx _ => cmdOf tx == 0
  | .wait _    => false

/-- The channel waited for the ready signal. -/
def isWait : Event → Bool
  | .exch _ _ => false
  | .wait _   => true

/-- How many events of a kind `CC.seq` records. -/
def count (p : Event → Bool) (s : State) : Nat := s.cc.seq.countP p

/-- The attempts that `CC.seq` records agree with the budgets spent (42_command_channel R148, R149): the outer attempts of
a set are 36 less what is left, the inner attempts of a get 4 less what is left, each READ request has one wait, and no
poll comes without a READ. -/
structure Accounts (s : State) : Prop where
  getWrites  : s.cc.st ≠ .idle → s.cc.kind = .get → count isWrite s = 0
  wrWrites   : s.cc.st = .sending → s.cc.phase = .wr → count isWrite s + s.cc.wcnt.toNat = 36
  setWrites  : s.cc.st ≠ .idle → s.cc.st ≠ .failed → s.cc.kind = .set → s.cc.phase = .rd →
                 count isWrite s + s.cc.wcnt.toNat = 37
  setFailed  : s.cc.st = .failed → s.cc.kind = .set → count isWrite s = 36 ∧ s.cc.wcnt.toNat = 0
  getReads   : s.cc.st = .sending → s.cc.kind = .get → count isRead s + s.cc.rcnt.toNat = 4
  getReads'  : s.cc.st.inGet = true → s.cc.st ≠ .sending → s.cc.kind = .get →
                 count isRead s + s.cc.rcnt.toNat = 5
  getFailed  : s.cc.st = .failed → s.cc.kind = .get → count isRead s = 4
  getDone    : s.cc.st = .success → s.cc.kind = .get → 1 ≤ count isRead s ∧ count isRead s ≤ 4
  setReads   : s.cc.st ≠ .idle → s.cc.kind = .set → count isRead s ≤ 4 * count isWrite s
  setReads'  : s.cc.st.inGet = true → s.cc.kind = .set → s.cc.phase = .rd →
                 count isRead s + s.cc.rcnt.toNat ≤
                   4 * count isWrite s + (if s.cc.st = .sending then 0 else 1)
  waits      : s.cc.st ≠ .idle →
                 count isWait s + (if s.cc.st = .awaitingSignal then 1 else 0) = count isRead s
  polls      : s.cc.st ≠ .idle →
                 count isPoll s + (if s.cc.st = .polling then 1 else 0) ≤ count isWait s

/-! ### The measure every step of a transaction lowers (42_command_channel R149) -/

/-- What is left of the current get. -/
def innerMeasure (s : State) : Nat :=
  match s.cc.st with
  | .sending        => match s.cc.phase with
                       | .wr => 63
                       | .rd => s.cc.rcnt.toNat * 8 + 6
  | .awaitingSignal => s.cc.rcnt.toNat * 8 + 5
  | .polling        => s.cc.rcnt.toNat * 8 + 4
  | .validating     => s.cc.rcnt.toNat * 8 + 3
  | .retryInner     => s.cc.rcnt.toNat * 8 + 2
  | .retryOuter     => 1
  | .idle | .success | .failed => 0

/-- What is left of the current transaction. -/
def setMeasure (s : State) : Nat :=
  match s.cc.kind with
  | .set => s.cc.wcnt.toNat * 64 + innerMeasure s
  | .get => innerMeasure s

/-- The sets a display operation has still to start. -/
def setsLeft (s : State) : Nat :=
  match s.disp with
  | none   => 0
  | some d => d.pending.length

/-- What is left of the current operation: 0 when the block is not busy. -/
def busyMeasure (s : State) : Nat :=
  (if s.cc.st = .idle then 0 else 1 + setMeasure s) + 2400 * setsLeft s

/-- No reset is listed on the input lines. -/
def NoReset (s : State) : Prop := ∀ l ∈ s.lines, l.reset = false

end Sys2Proof.Machine
end

