-- ==== Sys2Proof/Certificates/Slice0/Obligations.lean ====
section
/-! DEFINITION. The statements for the provers. Each docstring names the rule of spec/ it formalises. -/

open Sys2Proof Sys2Proof.Machine

/-! ### Encodings -/

/-- A few words written out from 30_encoding R80 and R76 decode to the instructions they stand for. -/
def Obligations.ListedWordsDecode : Prop :=
  decode .sevenSegment [0x10] = .ok .fcCrc8 ∧
  decode .character [0x20] = .ok .ccSet ∧
  decode .sevenSegment [0x39] = .ok .veTmp ∧
  decode .sevenSegment [0x45] = .ok .dispTmp ∧
  decode .sevenSegment [0x80, 0x00] = .ok .poll ∧
  decode .sevenSegment [0x80, 0x83, 0x00] = .ok .wrColon ∧
  decode .character [0x80, 0x83, 0x01, 0x48] = .ok .wrLine ∧
  decode .character [0x80, 0x02] = .ok .rdRawPassthrough ∧
  decode .sevenSegment [0x46] = .error .reservedOp ∧
  decode .sevenSegment [0x80, 0x05] = .error .unlistedFrame

/-- Decode and encode agree, in both directions: every well-formed instruction decodes from its word, whatever bytes follow
a frame's two; and whatever decodes is well-formed and begins with the word of its instruction (30_encoding R76, R80). -/
def Obligations.DecodeAndEncodeAgree : Prop :=
  (∀ (m : ModuleType) (i : Instr) (rest : List Byte), i.wf m = true →
    decode m (encode i) = .ok i ∧ ((encode i).length = 2 → decode m (encode i ++ rest) = .ok i)) ∧
  (∀ (m : ModuleType) (bs : List Byte) (i : Instr), decode m bs = .ok i → i.wf m = true ∧ encode i <+: bs)

/-- The round trip of a frame (40_frame_codec R106): decoding an encoded frame gives back the command byte and the payload,
zero-padded to the capacity, and the trailer of an encoded frame matches. -/
def Obligations.FrameRoundTrip : Prop :=
  ∀ (c : Config) (w : Bool) (ep : BitVec 7) (pl : List Byte), 3 ≤ c.frameLen.toNat →
    pl.length ≤ c.frameLen.toNat - 3 →
    ∃ f, encodeFrame c w ep pl = .ok f ∧ f.length = c.frameLen.toNat ∧
      decodeFrame c f = .ok ((if w then 0x80 else 0x00) ||| ep.setWidth 8,
        pl ++ List.replicate (c.frameLen.toNat - 3 - pl.length) 0x00) ∧
      crcOk c f = .ok true

/-- The residue law (40_frame_codec R102): a sequence followed by its checksum has checksum zero, and, the polynomial being
0x07, the trailer of a frame matches exactly when the checksum of the whole frame is zero. -/
def Obligations.ChecksumResidueIsZero : Prop :=
  ∀ (c : Config), c.crcPoly = 0x07 → c.crcXorOut = 0 →
    (∀ bs : List Byte, crc8 c (bs ++ [crc8 c bs]) = 0) ∧
    (∀ f : List Byte, f.length = c.frameLen.toNat → 1 ≤ c.frameLen.toNat →
      (trailerOk c f = true ↔ crc8 c f = 0))

/-- A frame with one byte altered has a trailer that does not match, the polynomial being 0x07 (95_test_vectors 2.1,
40_frame_codec R108). -/
def Obligations.OneAlteredByteIsDetected : Prop :=
  ∀ (c : Config) (f : List Byte) (k : Nat) (b : Byte), c.crcPoly = 0x07 → f.length = c.frameLen.toNat →
    k < f.length → trailerOk c f = true → b ≠ f.getD k 0 → trailerOk c (f.set k b) = false

/-- Every frame the sequencer is about to send, in every legal state, is `N` bytes of which the first two are a row of the
frame opcode map for the bound module (30_encoding R78, R76). -/
def Obligations.OnlyListedFramesAreSent : Prop :=
  ∀ s : State, Inv s → (s.cc.st = .sending ∨ s.cc.st = .polling) →
    (fetchBytes s).length = s.cfg.n ∧
    ∃ i, fetch s = .ok i ∧ i.wf s.cfg.moduleType = true ∧ encode i <+: fetchBytes s ∧ (encode i).length = 2

/-- The endpoint table (10_state R24): its codes, widths, sub-identifiers and message-id uses; every width lies in the
frame; and every other code has no descriptor. -/
def Obligations.EndpointTableAsListed : Prop :=
  ∀ c : Config,
    (c.moduleType = .sevenSegment →
      endpoint? c 0x01 = some ⟨0x01, 4, false, false⟩ ∧ endpoint? c 0x02 = some ⟨0x02, 1, false, false⟩ ∧
      endpoint? c 0x03 = some ⟨0x03, 1, false, false⟩ ∧ endpoint? c 0x04 = some ⟨0x04, 1, false, false⟩) ∧
    (c.moduleType = .character →
      endpoint? c 0x01 = some ⟨0x01, c.wColor.toNat, false, false⟩ ∧
      endpoint? c 0x02 = some ⟨0x02, c.wRaw.toNat, false, true⟩ ∧
      endpoint? c 0x03 = some ⟨0x03, c.wLine.toNat, true, false⟩ ∧
      endpoint? c 0x04 = some ⟨0x04, c.wCustom.toNat, true, false⟩) ∧
    (∀ ep : BitVec 7, ep.toNat = 0 ∨ 5 ≤ ep.toNat → endpoint? c ep = none) ∧
    (c.wf = true → ∀ ep e, endpoint? c ep = some e → 1 ≤ e.width ∧ e.width ≤ c.frameLen.toNat - 3)

/-! ### The frame codec's host operations -/

/-- The table and `FC.CRC8` (40_frame_codec R100, R101). Every entry of the table is its index after eight shifts, MSB
first, each with a conditional XOR of the polynomial, which is 0x07 in every legal configuration. From a block that is not
busy, `RV` is the checksum of `DIN`, one table step a byte from the initial value, then the final XOR; no buffer, channel
register or latch changes (R109). -/
def Obligations.CrcOperationReturnsChecksum : Prop :=
  (∀ m, decode m [0x10] = .ok .fcCrc8) ∧
  (∀ c : Config, c.wf = true → c.crcPoly = 0x07) ∧
  (∀ p i : Byte, crcTab p i = Nat.iterate (fun c => if c.getLsbD 7 then (c <<< 1) ^^^ p else c <<< 1) 8 i) ∧
  ∀ s : State, s.busy = false →
    Returns .fcCrc8 s (fun t => t.res.rv =
      (((s.req.din.bytes s.req.dlen.toNat).foldl (fun r b => crcTab s.cfg.crcPoly (r ^^^ b)) s.cfg.crcInit) ^^^
        s.cfg.crcXorOut).setWidth 16)

/-- `FC.ENCODE` (40_frame_codec R103): a payload that fits gives the frame in `DOUT`; one beyond capacity raises
`ERR_CAP`. -/
def Obligations.EncodeOperationBuildsFrame : Prop :=
  (∀ m, decode m [0x11] = .ok .fcEncode) ∧
  ∀ s : State, s.busy = false → s.cfg.sync = 0x80 → 3 ≤ s.cfg.frameLen.toNat →
    let pl := s.req.din.bytes s.req.dlen.toNat
    let body := (0x80 : Byte) :: ((if s.req.x0 = 0 then 0x00 else 0x80) ||| s.req.ep.setWidth 8) ::
      (pl ++ List.replicate (s.cfg.frameLen.toNat - 3 - pl.length) 0x00)
    (pl.length ≤ s.cfg.frameLen.toNat - 3 →
      Returns .fcEncode s (fun t => t.res.dolen = s.cfg.frameLen ∧ Delivers t (body ++ [crc8 s.cfg body]))) ∧
    (s.cfg.frameLen.toNat - 3 < pl.length → Raises .fcEncode s .errCap)

/-- `FC.DECODE` (40_frame_codec R105): byte 1 and bytes 2 to `N-2` of a sequence of `N` bytes; any other length raises
`ERR_LEN`. -/
def Obligations.DecodeOperationSplitsFrame : Prop :=
  (∀ m, decode m [0x12] = .ok .fcDecode) ∧
  ∀ s : State, s.busy = false → 3 ≤ s.cfg.frameLen.toNat →
    (s.req.dlen = s.cfg.frameLen →
      Returns .fcDecode s (fun t =>
        t.res.rv = (s.req.din.read 1).setWidth 16 ∧ t.res.dolen.toNat = s.cfg.frameLen.toNat - 3 ∧
        ∀ k, k < s.cfg.frameLen.toNat - 3 → t.res.dout.read k = s.req.din.read (k + 2))) ∧
    (s.req.dlen ≠ s.cfg.frameLen → Raises .fcDecode s .errLen)

/-- `FC.POLL` (40_frame_codec R107): the poll frame. -/
def Obligations.PollOperationBuildsPollFrame : Prop :=
  (∀ m, decode m [0x13] = .ok .fcPoll) ∧
  ∀ s : State, s.busy = false → s.cfg.sync = 0x80 → 3 ≤ s.cfg.frameLen.toNat →
    let body := (0x80 : Byte) :: 0x00 :: List.replicate (s.cfg.frameLen.toNat - 3) 0x00
    Returns .fcPoll s (fun t => t.res.dolen = s.cfg.frameLen ∧ Delivers t (body ++ [crc8 s.cfg body]))

/-- `FC.CHECK` (40_frame_codec R108): 1 when the last of `N` bytes is the checksum of those before it, else 0; any other
length raises `ERR_LEN`. -/
def Obligations.CheckOperationTestsTrailer : Prop :=
  (∀ m, decode m [0x14] = .ok .fcCheck) ∧
  ∀ s : State, s.busy = false → 1 ≤ s.cfg.frameLen.toNat →
    (s.req.dlen = s.cfg.frameLen →
      Returns .fcCheck s (fun t =>
        t.res.rv = if crc8 s.cfg (s.req.din.bytes (s.cfg.frameLen.toNat - 1)) =
          s.req.din.read (s.cfg.frameLen.toNat - 1) then 1 else 0)) ∧
    (s.req.dlen ≠ s.cfg.frameLen → Raises .fcCheck s .errLen)

/-! ### The value encoder -/

/-- `VE.DIG` (43_value_encoder R161). -/
def Obligations.DigitOperationLooksUpDigit : Prop :=
  (∀ m, decode m [0x30] = .ok .veDig) ∧
  ∀ s : State, s.busy = false →
    (∀ v : Nat, v ≤ 9 → s.req.x0.toInt = v →
      Returns .veDig s (fun t => t.res.rv = (s.cfg.seg.digits.getD v 0).setWidth 16)) ∧
    (s.req.x0.toInt < 0 ∨ 9 < s.req.x0.toInt → Raises .veDig s .errArg)

/-- `VE.CHR` (43_value_encoder R162) over the character table (30_encoding R88): digits, letters in either case, dash,
underscore, point, and blank for every other byte; a value that is no byte raises `ERR_ARG`. -/
def Obligations.CharacterOperationLooksUpTable : Prop :=
  (∀ m, decode m [0x31] = .ok .veChr) ∧
  ∀ s : State, s.busy = false →
    (∀ v : Nat, v ≤ 9 → s.req.x0.toInt = 0x30 + v →
      Returns .veChr s (fun t => t.res.rv = (s.cfg.seg.digits.getD v 0).setWidth 16)) ∧
    (∀ v : Nat, v ≤ 5 → (s.req.x0.toInt = 0x41 + v ∨ s.req.x0.toInt = 0x61 + v) →
      Returns .veChr s (fun t => t.res.rv = (s.cfg.seg.digits.getD (10 + v) 0).setWidth 16)) ∧
    (s.req.x0.toInt = 0x2D → Returns .veChr s (fun t => t.res.rv = s.cfg.seg.dash.setWidth 16)) ∧
    (s.req.x0.toInt = 0x5F → Returns .veChr s (fun t => t.res.rv = s.cfg.seg.underscore.setWidth 16)) ∧
    (s.req.x0.toInt = 0x2E → Returns .veChr s (fun t => t.res.rv = 0x80)) ∧
    (∀ c : Int, s.req.x0.toInt = c → 0 ≤ c → c ≤ 255 →
      ¬ (0x30 ≤ c ∧ c ≤ 0x39) → ¬ (0x41 ≤ c ∧ c ≤ 0x46) → ¬ (0x61 ≤ c ∧ c ≤ 0x66) →
      c ≠ 0x2D → c ≠ 0x5F → c ≠ 0x2E →
      Returns .veChr s (fun t => t.res.rv = s.cfg.seg.blank.setWidth 16)) ∧
    (s.req.x0.toInt < 0 ∨ 255 < s.req.x0.toInt → Raises .veChr s .errArg)

/-- `VE.I2D` (43_value_encoder R164): the low four decimal digits, most significant first; a negative operand raises
`ERR_ARG`. -/
def Obligations.IntegerDecomposesIntoDigits : Prop :=
  (∀ m, decode m [0x32] = .ok .veI2d) ∧
  ∀ s : State, s.busy = false →
    (∀ n : Nat, s.req.x0.toInt = n →
      Returns .veI2d s (fun t => Delivers t
        [s.cfg.seg.digits.getD (n / 1000 % 10) 0, s.cfg.seg.digits.getD (n / 100 % 10) 0,
         s.cfg.seg.digits.getD (n / 10 % 10) 0, s.cfg.seg.digits.getD (n % 10) 0])) ∧
    (s.req.x0.toInt < 0 → Raises .veI2d s .errArg)

/-- `VE.CLZ` (43_value_encoder R166, R167): a digit is blanked exactly when it and every digit left of it equal `D0`, the
fourth never; a length other than 4 raises `ERR_LEN`. -/
def Obligations.LeadingZerosAreBlanked : Prop :=
  (∀ m, decode m [0x33] = .ok .veClz) ∧
  ∀ s : State, s.busy = false →
    let d := fun k => s.req.din.read k
    let z := fun k => d k = s.cfg.seg.digits.getD 0 0
    (s.req.dlen = 4 →
      (z 0 → z 1 → z 2 → Returns .veClz s (fun t => Delivers t
        [s.cfg.seg.blank, s.cfg.seg.blank, s.cfg.seg.blank, d 3])) ∧
      (z 0 → z 1 → ¬ z 2 → Returns .veClz s (fun t => Delivers t
        [s.cfg.seg.blank, s.cfg.seg.blank, d 2, d 3])) ∧
      (z 0 → ¬ z 1 → Returns .veClz s (fun t => Delivers t [s.cfg.seg.blank, d 1, d 2, d 3])) ∧
      (¬ z 0 → Returns .veClz s (fun t => Delivers t [d 0, d 1, d 2, d 3]))) ∧
    (s.req.dlen ≠ 4 → Raises .veClz s .errLen)

/-- `VE.INT` (43_value_encoder R168, R165): the digits of the magnitude, leading zeros cleared unless shown, and the dash on
`d1` of a negative number; outside [-999, 9999] it raises `ERR_ARG`. -/
def Obligations.IntegerDisplayShowsNumber : Prop :=
  (∀ m, decode m [0x34] = .ok .veInt) ∧
  ∀ s : State, s.busy = false → s.cfg.seg.wf = true →
    let n := s.req.x0.toInt
    let a := n.natAbs
    let seg := fun v => s.cfg.seg.digits.getD v 0
    let hide := fun (bound : Nat) => s.req.x1 = 0 ∧ a < bound
    (-999 ≤ n ∧ n ≤ 9999 →
      Returns .veInt s (fun t => Delivers t
        [if n < 0 then s.cfg.seg.dash else if hide 1000 then s.cfg.seg.blank else seg (a / 1000),
         if hide 100 then s.cfg.seg.blank else seg (a / 100 % 10),
         if hide 10 then s.cfg.seg.blank else seg (a / 10 % 10),
         seg (a % 10)])) ∧
    (n < -999 ∨ 9999 < n → Raises .veInt s .errArg)

/-- `VE.FIX` (43_value_encoder R172 to R175): the point on the digit at position `4-P`; a zero that carries the point is no
leading zero; the dash on `d1` of a negative number keeps the point under it; a place count outside 0 to 3 or a number
outside the range raises `ERR_ARG`. -/
def Obligations.FixedPointDisplayShowsNumber : Prop :=
  (∀ m, decode m [0x35] = .ok .veFix) ∧
  ∀ s : State, s.busy = false → s.cfg.seg.wf = true →
    let m := s.req.x0.toInt
    let a := m.natAbs
    let p := s.req.x2.toInt
    let seg := fun v => s.cfg.seg.digits.getD v 0
    let dot := fun (k : Int) (d : Byte) => if p = k then d ||| 0x80 else d
    let hide := fun (k : Int) (bound : Nat) => s.req.x1 = 0 ∧ p < k ∧ a < bound
    (0 ≤ p → p ≤ 3 → -999 ≤ m → m ≤ 9999 →
      Returns .veFix s (fun t => Delivers t
        [if m < 0 then dot 3 s.cfg.seg.dash else if hide 3 1000 then s.cfg.seg.blank else dot 3 (seg (a / 1000)),
         if hide 2 100 then s.cfg.seg.blank else dot 2 (seg (a / 100 % 10)),
         if hide 1 10 then s.cfg.seg.blank else dot 1 (seg (a / 10 % 10)),
         dot 0 (seg (a % 10))])) ∧
    (p < 0 ∨ 3 < p ∨ m < -999 ∨ 9999 < m → Raises .veFix s .errArg)

/-- `VE.STR` (43_value_encoder R178): the scan with its backward merge gives the slots read from the left, at most four,
the rest blank. Every string has a result. (A legal `SEG` has no point in a digit, the dash, the underscore or the blank:
30_encoding R86, log 19.) -/
def Obligations.StringDisplayFillsSlots : Prop :=
  (∀ m, decode m [0x36] = .ok .veStr) ∧
  ∀ s : State, s.busy = false → s.cfg.seg.wf = true →
    let slots := slotsOf s.cfg.seg 4 (s.req.din.bytes s.req.dlen.toNat)
    slots.length ≤ 4 ∧
    Returns .veStr s (fun t => Delivers t (slots ++ List.replicate (4 - slots.length) s.cfg.seg.blank))

/-- `VE.CLK` (43_value_encoder R184, R185): the displayed hour, the digits of hour and minute, the blanked tens digit of
12-hour mode, the PM flag and its point; an hour or a minute out of range raises `ERR_ARG`. -/
def Obligations.ClockDisplayShowsTime : Prop :=
  (∀ m, decode m [0x37] = .ok .veClk) ∧
  ∀ s : State, s.busy = false → s.cfg.seg.wf = true →
    let seg := fun v => s.cfg.seg.digits.getD v 0
    let mode12 := s.req.x2 ≠ 0
    (∀ hour minute : Nat, s.req.x0.toInt = hour → s.req.x1.toInt = minute → hour ≤ 23 → minute ≤ 59 →
      let h := if mode12 then (if hour = 0 ∨ hour = 12 then 12 else if hour ≤ 11 then hour else hour - 12) else hour
      let pm := mode12 ∧ 12 ≤ hour
      Returns .veClk s (fun t =>
        t.res.rv = (if pm then 1 else 0) ∧
        Delivers t
          [if mode12 ∧ h < 10 then s.cfg.seg.blank else seg (h / 10), seg (h % 10), seg (minute / 10),
           if pm ∧ s.req.x3 ≠ 0 then seg (minute % 10) ||| 0x80 else seg (minute % 10)])) ∧
    (s.req.x0.toInt < 0 ∨ 23 < s.req.x0.toInt ∨ s.req.x1.toInt < 0 ∨ 59 < s.req.x1.toInt →
      Raises .veClk s .errArg)

/-- `VE.DUR` (43_value_encoder R188): the mode Automatic resolves to, the display value of the resolved mode, shown with
leading zeros and a dash; an unknown mode or a value outside the range raises `ERR_ARG`. -/
def Obligations.DurationDisplayShowsValue : Prop :=
  (∀ m, decode m [0x38] = .ok .veDur) ∧
  ∀ s : State, s.busy = false →
    let hours := s.req.x0.toInt
    let minutes := s.req.x1.toInt
    let mode := s.req.x3.toInt
    let seg := fun v => s.cfg.seg.digits.getD v 0
    let asHourMinute := mode = 0 ∨ (mode = 2 ∧ (hours ≠ 0 ∨ minutes ≤ -10))
    let v := if asHourMinute then hours * 100 + minutes else minutes * 100 + s.req.x2.toInt
    (0 ≤ mode → mode ≤ 2 → -999 ≤ v → v ≤ 9999 →
      Returns .veDur s (fun t =>
        t.res.rv = (if asHourMinute then 0 else 1) ∧
        Delivers t
          [if v < 0 then s.cfg.seg.dash else seg (v.natAbs / 1000), seg (v.natAbs / 100 % 10),
           seg (v.natAbs / 10 % 10), seg (v.natAbs % 10)])) ∧
    (mode < 0 ∨ 2 < mode → Raises .veDur s .errArg) ∧
    (0 ≤ mode → mode ≤ 2 → v < -999 ∨ 9999 < v → Raises .veDur s .errArg)

/-- `VE.TMP` (43_value_encoder R192 to R194): decimal mode when requested and strictly between -10 and 100 degrees, whole
degrees truncated toward zero otherwise, three digits with leading zeros cleared, the point on the second digit, the dash
on the first, the fourth blank; outside -99 to 999 degrees it raises `ERR_ARG`. -/
def Obligations.TemperatureDisplayShowsDegrees : Prop :=
  (∀ m, decode m [0x39] = .ok .veTmp) ∧
  ∀ s : State, s.busy = false → s.cfg.seg.wf = true → s.cfg.tempRound = .towardZero →
    let t10 := s.req.x0.toInt
    let dm := s.req.x1 ≠ 0 ∧ -100 < t10 ∧ t10 < 1000
    let v := if dm then t10 else t10.tdiv 10
    let a := v.natAbs
    let seg := fun k => s.cfg.seg.digits.getD k 0
    (-990 ≤ t10 → t10 ≤ 9990 →
      Returns .veTmp s (fun t =>
        t.res.rv = (if dm then 1 else 0) ∧
        Delivers t
          [if v < 0 then s.cfg.seg.dash else if a < 100 then s.cfg.seg.blank else seg (a / 100),
           if dm then seg (a / 10 % 10) ||| 0x80 else if a < 10 then s.cfg.seg.blank else seg (a / 10 % 10),
           seg (a % 10),
           s.cfg.seg.blank])) ∧
    (t10 < -990 ∨ 9990 < t10 → Raises .veTmp s .errArg)

/-- A host operation of the frame codec or the value encoder reads no request register that 30_encoding R81 does not list
for it: two states, neither busy, that agree on the listed ones, the configuration and the free values give the same
results (10_state R21). -/
def Obligations.UnlistedOperandsAreIgnored : Prop :=
  ∀ (s s' : State) (i : Instr), s.busy = false → s'.busy = false → s'.cfg = s.cfg → s'.free = s.free →
    ((i = .fcPoll) ∨
     (i ∈ [Instr.veDig, .veChr, .veI2d] ∧ s'.req.x0 = s.req.x0) ∨
     (i ∈ [Instr.veInt, .veTmp] ∧ s'.req.x0 = s.req.x0 ∧ s'.req.x1 = s.req.x1) ∨
     (i = .veFix ∧ s'.req.x0 = s.req.x0 ∧ s'.req.x1 = s.req.x1 ∧ s'.req.x2 = s.req.x2) ∨
     (i ∈ [Instr.veClk, .veDur] ∧ s'.req.x0 = s.req.x0 ∧ s'.req.x1 = s.req.x1 ∧ s'.req.x2 = s.req.x2 ∧
       s'.req.x3 = s.req.x3) ∨
     (i ∈ [Instr.fcCrc8, .fcDecode, .fcCheck, .veClz, .veStr] ∧ s'.req.dlen = s.req.dlen ∧
       ∀ a, a < s.req.dlen.toNat → s'.req.din.read a = s.req.din.read a) ∨
     (i = .fcEncode ∧ s'.req.x0 = s.req.x0 ∧ s'.req.ep = s.req.ep ∧ s'.req.dlen = s.req.dlen ∧
       ∀ a, a < s.req.dlen.toNat → s'.req.din.read a = s.req.din.read a)) →
    ∃ t t', exec i s = .next t ∧ exec i s' = .next t' ∧ t'.res = t.res

/-! ### The command channel's host operations -/

/-- Admission (42_command_channel R134): the checks in their order, each failing one ending the operation with its status
and no other change. -/
def Obligations.AdmissionChecksInOrder : Prop :=
  ∀ s : State, s.busy = false →
    (endpoint? s.cfg s.req.ep = none → Raises .ccSet s .errArg ∧ Raises .ccGet s .errArg) ∧
    (∀ e, endpoint? s.cfg s.req.ep = some e →
      let len := (if e.hasSub then 1 else 0) + s.req.dlen.toNat
      (s.req.subEn ≠ e.hasSub → Raises .ccSet s .errArg ∧ Raises .ccGet s .errArg) ∧
      (s.req.subEn = e.hasSub → s.cfg.frameLen.toNat - 3 < len → Raises .ccSet s .errCap) ∧
      (s.req.subEn = e.hasSub → len ≤ s.cfg.frameLen.toNat - 3 → e.width < len → Raises .ccSet s .errArg))

/-- An admitted `CC.SET` (42_command_channel R135, R133): the channel takes the request, with the sub-identifier first for a
parameterised endpoint; `MSGID` moves on where the endpoint uses it; nothing else changes. Two fields are the model's own:
the register `CC.mid` that keeps the old `MSGID` (log 30), and `State.disp`, empty during a host's set (log 10). -/
def Obligations.AdmittedSetStarts : Prop :=
  ∀ (s : State) (e : Endpoint), s.busy = false → endpoint? s.cfg s.req.ep = some e → s.req.subEn = e.hasSub →
    let value := (if e.hasSub then [s.req.sub] else []) ++ s.req.din.bytes s.req.dlen.toNat
    value.length ≤ s.cfg.frameLen.toNat - 3 → value.length ≤ e.width →
    ∃ t, exec .ccSet s = .next t ∧ StartsSet s t s.req.ep s.req.subEn value ∧ OnlyChannel s t ∧
      t.res = s.res ∧ t.disp = none ∧ t.msgid = (if e.msgid then s.msgid + 1 else s.msgid)

/-- An admitted `CC.GET` (42_command_channel R135). Two fields are the model's own: the register `CC.mid` that keeps the old
`MSGID` (log 30), and `State.disp`, empty during a get (log 10). -/
def Obligations.AdmittedGetStarts : Prop :=
  ∀ (s : State) (e : Endpoint), s.busy = false → endpoint? s.cfg s.req.ep = some e → s.req.subEn = e.hasSub →
    ∃ t, exec .ccGet s = .next t ∧ OnlyChannel s t ∧ t.res = s.res ∧ t.disp = none ∧
      t.cc.st = .sending ∧ t.cc.kind = .get ∧ t.cc.phase = .rd ∧ t.cc.ep = s.req.ep ∧ t.cc.subEn = s.req.subEn ∧
      t.cc.sub = s.req.sub ∧ t.cc.rcnt = s.cfg.rBudget ∧ t.cc.seq = [] ∧ t.cc.mid = s.msgid ∧
      t.cc.want = s.cc.want ∧ t.cc.wlen = s.cc.wlen ∧ t.cc.wcnt = s.cc.wcnt ∧ t.cc.got = s.cc.got ∧
      t.msgid = (if e.msgid then s.msgid + 1 else s.msgid)

/-! ### The display-value operations -/

/-- A display operation on a seven-segment module with operands in range (44_display_operations R200, R206): it leaves in
`DOUT` the digits that the value encoding of the same operands leaves, writes no status, and starts the set of DisplayValue
with those digits; `DISP.TMP` keeps two more sets, apostrophe on and colon off, in that order. Three clauses are the model's
reading and no rule's: `CC.sub` takes `SUB` though `SUB_EN` is 0 (the field `sub` of `StartsSet`: DEDUCED, unsafe, log 27),
the sets still to start stand in `State.disp` (DEDUCED, log 10), and the register that keeps the old `MSGID` is `CC.mid`
(DEDUCED, log 30). -/
def Obligations.DisplayOperationStartsSet : Prop :=
  ∀ r ∈ ([(.dispInt, .veInt, []), (.dispFix, .veFix, []), (.dispStr, .veStr, []), (.dispClk, .veClk, []),
      (.dispDur, .veDur, []), (.dispTmp, .veTmp, [⟨0x04, [0x01]⟩, ⟨0x03, [0x00]⟩])] :
      List (Instr × Instr × List SetReq)),
    ∀ s : State, s.busy = false → s.cfg.wf = true → s.cfg.moduleType = .sevenSegment →
      OperandsInRange r.1 s →
      ∃ t v digits, exec r.1 s = .next t ∧ exec r.2.1 s = .next v ∧ v.res.st = .ok ∧
        digits.length = 4 ∧ Delivers v digits ∧ Delivers t digits ∧ t.res.st = s.res.st ∧
        (r.1 ∈ [Instr.dispClk, .dispDur, .dispTmp] → t.res.rv = v.res.rv) ∧
        StartsSet s t 0x01 false digits ∧ t.disp = some ⟨r.2.2, true⟩ ∧ t.msgid = s.msgid ∧ OnlyChannel s t

/-- A display operation on a character module, or with operands out of range, raises `ERR_ARG` before any exchange and
changes nothing but the results (44_display_operations R200, 60_exceptions R222, R223). -/
def Obligations.DisplayOperationRaisesFirst : Prop :=
  ∀ i ∈ [Instr.dispInt, .dispFix, .dispStr, .dispClk, .dispDur, .dispTmp], ∀ s : State, s.busy = false →
    (s.cfg.moduleType = .character ∨ ¬ OperandsInRange i s) → Raises i s .errArg

/-! ### The frames -/

/-- The step that sends a WRITE frame (42_command_channel R136): `TXBUF` holds the frame of `CC.want`, `RXBUF` what the
transport presented, `CC.seq` both; the read budget is fresh and the READ request is next. -/
def Obligations.WriteFrameIsSent : Prop :=
  ∀ r ∈ ([(.wrDisplayValue, .sevenSegment, 0x01), (.wrBrightness, .sevenSegment, 0x02),
      (.wrColon, .sevenSegment, 0x03), (.wrApostrophe, .sevenSegment, 0x04),
      (.wrColor, .character, 0x01), (.wrRawPassthrough, .character, 0x02),
      (.wrLine, .character, 0x03), (.wrCustomCharacter, .character, 0x04)] :
      List (Instr × ModuleType × BitVec 7)),
    ∀ s : State, Inv s → s.cfg.moduleType = r.2.1 → s.cc.st = .sending → s.cc.phase = .wr → s.cc.ep = r.2.2 →
      let pl := s.cc.want.take s.cc.wlen.toNat
      let body := (0x80 : Byte) :: (0x80 ||| r.2.2.setWidth 8) ::
        (pl ++ List.replicate (s.cfg.n - 3 - pl.length) 0x00)
      ∃ t, exec r.1 s = .next t ∧ t.txbuf.bytes s.cfg.n = body ++ [crc8 s.cfg body] ∧
        (∀ rx rest, s.answers = rx :: rest → rx.length = s.cfg.n → t.rxbuf.bytes s.cfg.n = rx ∧ t.answers = rest) ∧
        t.cc.seq = s.cc.seq ++ [.exch (t.txbuf.bytes s.cfg.n) (t.rxbuf.bytes s.cfg.n)] ∧
        t.cc.rcnt = 4 ∧ t.cc.phase = .rd ∧ t.cc.st = .sending ∧ OnlyExchange s t

/-- The step that sends a READ request (42_command_channel R137, R133): the payload is the sub-identifier for Line and
CustomCharacter and empty otherwise; the wait is next. -/
def Obligations.ReadFrameIsSent : Prop :=
  ∀ r ∈ ([(.rdDisplayValue, .sevenSegment, 0x01, false), (.rdBrightness, .sevenSegment, 0x02, false),
      (.rdColon, .sevenSegment, 0x03, false), (.rdApostrophe, .sevenSegment, 0x04, false),
      (.rdColor, .character, 0x01, false), (.rdRawPassthrough, .character, 0x02, false),
      (.rdLine, .character, 0x03, true), (.rdCustomCharacter, .character, 0x04, true)] :
      List (Instr × ModuleType × BitVec 7 × Bool)),
    ∀ s : State, Inv s → s.cfg.moduleType = r.2.1 → s.cc.st = .sending → s.cc.phase = .rd → s.cc.ep = r.2.2.1 →
      let pl := if r.2.2.2 then [s.cc.sub] else []
      let body := (0x80 : Byte) :: r.2.2.1.setWidth 8 :: (pl ++ List.replicate (s.cfg.n - 3 - pl.length) 0x00)
      ∃ t, exec r.1 s = .next t ∧ t.txbuf.bytes s.cfg.n = body ++ [crc8 s.cfg body] ∧
        (∀ rx rest, s.answers = rx :: rest → rx.length = s.cfg.n → t.rxbuf.bytes s.cfg.n = rx ∧ t.answers = rest) ∧
        t.cc.seq = s.cc.seq ++ [.exch (t.txbuf.bytes s.cfg.n) (t.rxbuf.bytes s.cfg.n)] ∧
        t.cc.rcnt = s.cc.rcnt ∧ t.cc.phase = .rd ∧ t.cc.st = .awaitingSignal ∧ OnlyExchange s t

/-- The step that polls (42_command_channel R140): the poll frame is exchanged for the response, which is validated
next. -/
def Obligations.PollFrameIsSent : Prop :=
  ∀ s : State, Inv s → s.cc.st = .polling →
    let body := (0x80 : Byte) :: 0x00 :: List.replicate (s.cfg.n - 3) 0x00
    ∃ t, exec .poll s = .next t ∧ t.txbuf.bytes s.cfg.n = body ++ [crc8 s.cfg body] ∧
      (∀ rx rest, s.answers = rx :: rest → rx.length = s.cfg.n → t.rxbuf.bytes s.cfg.n = rx ∧ t.answers = rest) ∧
      t.cc.seq = s.cc.seq ++ [.exch (t.txbuf.bytes s.cfg.n) (t.rxbuf.bytes s.cfg.n)] ∧
      t.cc.rcnt = s.cc.rcnt ∧ t.cc.phase = s.cc.phase ∧ t.cc.st = .validating ∧ OnlyExchange s t

/-- A frame has no step in a sequencer state that does not send it (42_command_channel R147: "a pair not listed has no
step"): the poll frame is sent from `Polling` only, and a WRITE or READ frame only from `Sending` with its own phase,
endpoint and module type. The refusal by name is the model's (log 9). -/
def Obligations.NoFrameOutOfTurn : Prop :=
  (∀ s : State, s.cc.st ≠ .polling → exec .poll s = .refused .noStep) ∧
  ∀ r ∈ ([(.wrDisplayValue, .sevenSegment, .wr, 0x01), (.wrBrightness, .sevenSegment, .wr, 0x02),
      (.wrColon, .sevenSegment, .wr, 0x03), (.wrApostrophe, .sevenSegment, .wr, 0x04),
      (.rdDisplayValue, .sevenSegment, .rd, 0x01), (.rdBrightness, .sevenSegment, .rd, 0x02),
      (.rdColon, .sevenSegment, .rd, 0x03), (.rdApostrophe, .sevenSegment, .rd, 0x04),
      (.wrColor, .character, .wr, 0x01), (.wrRawPassthrough, .character, .wr, 0x02),
      (.wrLine, .character, .wr, 0x03), (.wrCustomCharacter, .character, .wr, 0x04),
      (.rdColor, .character, .rd, 0x01), (.rdRawPassthrough, .character, .rd, 0x02),
      (.rdLine, .character, .rd, 0x03), (.rdCustomCharacter, .character, .rd, 0x04)] :
      List (Instr × ModuleType × Phase × BitVec 7)),
    ∀ s : State,
      (s.cc.st ≠ .sending ∨ s.cc.phase ≠ r.2.2.1 ∨ s.cc.ep ≠ r.2.2.2 ∨ s.cfg.moduleType ≠ r.2.1) →
      exec r.1 s = .refused .noStep

/-! ### The steps of the sequencer that send no frame -/

/-- State `AwaitingSignal` (42_command_channel R138, 41_transport_adapter R122): the wait returns what the latch holds once
the environment has moved, clears it, and is recorded. -/
def Obligations.WaitTakesTheLatch : Prop :=
  ∀ s : State, (linesNow s).reset = false → s.cc.st = .awaitingSignal →
    let ready := s.rdy || (linesNow s).ready
    ∃ t, step s = .next t ∧ t.cc.st = (if ready then .polling else .retryInner) ∧ t.rdy = false ∧
      t.cc.seq = s.cc.seq ++ [.wait ready] ∧ t.cc.phase = s.cc.phase ∧ t.cc.rcnt = s.cc.rcnt ∧
      t.cc.wcnt = s.cc.wcnt ∧ t.cc.got = s.cc.got ∧ t.res = s.res ∧ t.disp = s.disp ∧
      NoExchange s t ∧ SameTransaction s t

/-- State `Validating` (42_command_channel R141, R142): a response is taken exactly when its trailer matches (if checked),
its command byte is `READ|endpoint`, and its sub-identifier matches (if the endpoint has one); a set compares the first
`width` bytes with the intended value, zero-padded. -/
def Obligations.ResponseIsValidated : Prop :=
  ∀ (s : State) (e : Endpoint), Inv s → (linesNow s).reset = false → s.cc.st = .validating →
    endpoint? s.cfg s.cc.ep = some e →
    let rx := s.rxbuf.bytes s.cfg.n
    let accepted := (s.cfg.rxCrcCheck = false ∨ crc8 s.cfg (s.rxbuf.bytes (s.cfg.n - 1)) = s.rxbuf.read (s.cfg.n - 1)) ∧
      s.rxbuf.read s.cfg.cmdOffset.toNat = s.cc.ep.setWidth 8 ∧
      (e.hasSub = false ∨ s.rxbuf.read 2 = s.cc.sub)
    let payload := (rx.drop 2).take (s.cfg.n - 3)
    let intended := s.cc.want.take s.cc.wlen.toNat
    let equal := payload.take e.width = intended ++ List.replicate (e.width - intended.length) 0x00
    ∃ t, step s = .next t ∧ NoExchange s t ∧ SameTransaction s t ∧
      t.cc.seq = s.cc.seq ∧ t.cc.phase = s.cc.phase ∧ t.cc.rcnt = s.cc.rcnt ∧ t.cc.wcnt = s.cc.wcnt ∧
      t.res = s.res ∧ t.disp = s.disp ∧ t.rdy = (s.rdy || (linesNow s).ready) ∧
      (¬ accepted → t.cc.st = .retryInner ∧ t.cc.got = s.cc.got) ∧
      (accepted → t.cc.got = payload) ∧
      (accepted → s.cc.kind = .get → t.cc.st = .success) ∧
      (accepted → s.cc.kind = .set → equal → t.cc.st = .success) ∧
      (accepted → s.cc.kind = .set → ¬ equal → t.cc.st = .retryOuter)

/-- State `RetryInner` (42_command_channel R143): one read attempt fewer; a new READ request while any is left; else a get
has failed and a set retries its outer loop. -/
def Obligations.ReadBudgetIsSpent : Prop :=
  ∀ s : State, (linesNow s).reset = false → s.cc.st = .retryInner →
    ∃ t, step s = .next t ∧ NoExchange s t ∧ SameTransaction s t ∧
      t.cc.rcnt = s.cc.rcnt - 1 ∧ t.cc.wcnt = s.cc.wcnt ∧ t.cc.seq = s.cc.seq ∧ t.cc.got = s.cc.got ∧
      t.res = s.res ∧ t.disp = s.disp ∧ t.rdy = (s.rdy || (linesNow s).ready) ∧
      (s.cc.rcnt - 1 ≠ 0 → t.cc.st = .sending ∧ t.cc.phase = .rd) ∧
      (s.cc.rcnt - 1 = 0 → t.cc.phase = s.cc.phase ∧
        (s.cc.kind = .get → t.cc.st = .failed) ∧ (s.cc.kind = .set → t.cc.st = .retryOuter))

/-- State `RetryOuter` (42_command_channel R144): one write attempt fewer; the WRITE again while any is left; else the set
has failed. -/
def Obligations.WriteBudgetIsSpent : Prop :=
  ∀ s : State, (linesNow s).reset = false → s.cc.st = .retryOuter →
    ∃ t, step s = .next t ∧ NoExchange s t ∧ SameTransaction s t ∧
      t.cc.wcnt = s.cc.wcnt - 1 ∧ t.cc.rcnt = s.cc.rcnt ∧ t.cc.seq = s.cc.seq ∧ t.cc.got = s.cc.got ∧
      t.res = s.res ∧ t.disp = s.disp ∧ t.rdy = (s.rdy || (linesNow s).ready) ∧
      (s.cc.wcnt - 1 ≠ 0 → t.cc.st = .sending ∧ t.cc.phase = .wr) ∧
      (s.cc.wcnt - 1 = 0 → t.cc.st = .failed ∧ t.cc.phase = s.cc.phase)

/-- The end of a get (42_command_channel R145, R146): `ST`, the kept `MSGID` in `RV[15:8]`, on success the first `width`
payload bytes in `DOUT`; the block is idle, not busy, and done. The register `CC.mid` that keeps `MSGID`, and `State.disp`,
are the model's own (log 30, log 10). -/
def Obligations.GetDeliversItsResult : Prop :=
  ∀ (s : State) (e : Endpoint), Inv s → (linesNow s).reset = false → s.cc.kind = .get →
    endpoint? s.cfg s.cc.ep = some e → (s.cc.st = .success ∨ s.cc.st = .failed) →
    ∃ t, step s = .next t ∧ t.cc = { s.cc with st := .idle } ∧ t.busy = false ∧ t.done = true ∧ NoExchange s t ∧
      t.msgid = s.msgid ∧ t.disp = s.disp ∧ t.rdy = (s.rdy || (linesNow s).ready) ∧
      t.res.rv.extractLsb' 8 8 = s.cc.mid ∧
      (s.cc.st = .success → t.res.st = .ok ∧ t.res.dolen.toNat = e.width ∧
        t.res.dout.bytes e.width = s.cc.got.take e.width) ∧
      (s.cc.st = .failed → t.res.st = .fail)

/-- The end of a set that the host asked for (42_command_channel R145, R146): `ST`, the kept `MSGID` in `RV[15:8]`, and
`DOUT` and `DOLEN` not written; the block is idle, not busy, and done. The register `CC.mid` that keeps `MSGID`, and
`State.disp`, are the model's own (log 30, log 10). -/
def Obligations.SetReportsItsStatus : Prop :=
  ∀ s : State, (linesNow s).reset = false → s.cc.kind = .set → s.disp = none →
    (s.cc.st = .success ∨ s.cc.st = .failed) →
    ∃ t, step s = .next t ∧ t.cc = { s.cc with st := .idle } ∧ t.busy = false ∧ t.done = true ∧ NoExchange s t ∧
      t.msgid = s.msgid ∧ t.disp = none ∧ t.rdy = (s.rdy || (linesNow s).ready) ∧
      t.res.rv.extractLsb' 8 8 = s.cc.mid ∧
      (∀ a, t.res.dout.read a = s.res.dout.read a) ∧ t.res.dolen = s.res.dolen ∧
      t.res.st = (if s.cc.st = .success then .ok else .fail)

/-- The sets of a display operation (44_display_operations R200, R206, 42_command_channel R145, R146, R135). The end of a
set returns the channel to `Idle`. While sets are pending the operation goes on, whatever this one returned: `ST` and done
are not written, and the step from `Idle` starts the next set. After the last, `ST` is `OK` only if every set was, `DOUT`
keeps the digits, and `RV` of an `OK` operation keeps what the encoding left. That the block is still busy in that `Idle`,
and that it is left by one step of its own, is how the model reads 60_exceptions R228 (log 10). Three more clauses are the
model's reading and no rule's: the progress stands in `State.disp` (DEDUCED, log 10), `CC.sub` takes `SUB` at each of these
sets though `SUB_EN` is 0 (the field `sub` of `StartsSet`: DEDUCED, unsafe, log 27), and the register that keeps the old
`MSGID` is `CC.mid` (DEDUCED, log 30). -/
def Obligations.DisplaySetsRunInOrder : Prop :=
  ∀ (s : State) (d : DispRun), Inv s → (linesNow s).reset = false → s.disp = some d →
    ((s.cc.st = .success ∨ s.cc.st = .failed) →
      let ok := d.allOk && s.cc.st == .success
      ∃ t, step s = .next t ∧ t.cc = { s.cc with st := .idle } ∧ (∀ a, t.res.dout.read a = s.res.dout.read a) ∧
        t.res.dolen = s.res.dolen ∧ t.msgid = s.msgid ∧ NoExchange s t ∧ t.rdy = (s.rdy || (linesNow s).ready) ∧
        (d.pending ≠ [] → t.busy = true ∧ t.disp = some ⟨d.pending, ok⟩ ∧ t.res = s.res ∧ t.done = s.done) ∧
        (d.pending = [] → t.busy = false ∧ t.disp = none ∧ t.done = true ∧
          t.res.st = (if ok then .ok else .fail) ∧ (ok = true → t.res.rv = s.res.rv))) ∧
    (s.cc.st = .idle → ∀ r rest, d.pending = r :: rest →
      ∃ t, step s = .next t ∧ StartsSet s t r.ep false r.value ∧ t.disp = some ⟨rest, d.allOk⟩ ∧ t.res = s.res ∧
        t.msgid = s.msgid ∧ t.start = false ∧ NoExchange s t ∧ t.rdy = (s.rdy || (linesNow s).ready))

/-! ### The step of the machine -/

/-- A step runs the decoded instruction: where the bytes of the block's next instruction decode to a well-formed one, and
(in `Idle`) start is pulsed, the step is that instruction's meaning at the state in which the input lines have been sampled
and the start pulse taken (60_exceptions R228, 42_command_channel R139). -/
def Obligations.StepRunsDecodedInstruction : Prop :=
  ∀ (s : State) (i : Instr), (linesNow s).reset = false → (s.cc.st = .idle → s.start = true) →
    decode s.cfg.moduleType (fetchBytes s) = .ok i → i.wf s.cfg.moduleType = true →
    step s = exec i (takeStart (sample s))

/-- A reserved operation code (30_encoding R82, 60_exceptions R224, R222): the started operation ends at once with `ERR_OP`
and changes nothing but the results. -/
def Obligations.ReservedCodeRaisesErrOp : Prop :=
  ∀ s : State, (linesNow s).reset = false → s.busy = false → s.start = true →
    (∀ i, encode i ≠ [s.req.op]) →
    ∃ t, step s = .next t ∧ t.res.st = .errOp ∧ t.done = true ∧ OnlyResults (takeStart (sample s)) t

/-- A start while the block is busy is not accepted and has no effect (60_exceptions R228): whenever `CC.st` is not `Idle`,
and also, as the model reads the rule, in the `Idle` between two sets of one display operation (log 10). -/
def Obligations.StartWhileBusyHasNoEffect : Prop :=
  (∀ s : State, s.cc.st ≠ .idle → s.busy = true) ∧
  ∀ s : State, s.busy = true →
    step { s with start := true } = step { s with start := false } ∧
    ∀ i, (encode i).length = 1 → exec i s = .next s

/-- The ready latch (41_transport_adapter R123, R125, 60_exceptions R230): a ready edge before any step other than a wait
leaves the latch set, and no such step clears it; only a wait and reset do. That an edge sampled together with reset is lost
is the model's choice (log 15). -/
def Obligations.ReadyLatchPersists : Prop :=
  ∀ s t : State, step s = .next t →
    ((linesNow s).reset = true → t.rdy = false) ∧
    ((linesNow s).reset = false → s.cc.st ≠ .awaitingSignal → t.rdy = (s.rdy || (linesNow s).ready)) ∧
    ((linesNow s).reset = false → s.cc.st = .awaitingSignal → t.rdy = false ∧
      (t.cc.st = .polling ↔ (s.rdy || (linesNow s).ready) = true))

/-- Reset in any state (70_reset_and_hazards R240, 10_state R37): the values the spec gives, the constants as they were,
and no exchange (the answers to come stay: log 15). -/
def Obligations.ResetFromAnyState : Prop :=
  ∀ s : State, (linesNow s).reset = true →
    ∃ t, step s = .next t ∧ t.busy = false ∧ t.cc.st = .idle ∧ t.cc.wcnt = 0 ∧ t.cc.rcnt = 0 ∧ t.cc.seq = [] ∧
      t.rdy = false ∧ t.msgid = 0 ∧ t.cfg = s.cfg ∧ t.answers = s.answers

/-- The configuration is written by no step, and no operation writes a request register: only the host does, while the block
is not busy and has no start pending (10_state R21, R23). In that state the sequencer takes no step: the channel, the
results, the frame buffers and `MSGID` stay, and only the host moves, if it has a request (42_command_channel R135). Two
clauses are the model's choice and no rule's: that the host's write takes the head of `State.host` and is made only with no
start pending (DESIGN CHOICE, log 7), and that done stays as it was at rest (DESIGN CHOICE, unsafe, log 16). -/
def Obligations.OnlyTheHostWritesRequests : Prop :=
  ∀ s t : State, step s = .next t →
    t.cfg = s.cfg ∧
    ((linesNow s).reset = false →
      t.req = s.req ∨ (s.busy = false ∧ s.start = false ∧ ∃ r rs, s.host = r :: rs ∧ t.start = true ∧ t.host = rs)) ∧
    ((linesNow s).reset = false → s.busy = false → s.start = false →
      t.cc = s.cc ∧ t.res = s.res ∧ t.msgid = s.msgid ∧ t.disp = s.disp ∧ t.txbuf = s.txbuf ∧ t.rxbuf = s.rxbuf ∧
      t.answers = s.answers ∧ t.done = s.done ∧ t.rdy = (s.rdy || (linesNow s).ready) ∧
      (s.host = [] → t.req = s.req ∧ t.start = false ∧ t.host = []))

/-- The message-id counter moves only when the host's `CC.SET` or `CC.GET` is accepted on an endpoint that uses it
(10_state R33). -/
def Obligations.MessageIdCountsAcceptedCalls : Prop :=
  ∀ s t : State, Inv s → (linesNow s).reset = false → step s = .next t → t.msgid ≠ s.msgid →
    s.busy = false ∧ s.start = true ∧ (s.req.op = 0x20 ∨ s.req.op = 0x21) ∧ t.cc.st = .sending ∧
    t.msgid = s.msgid + 1 ∧ ∃ e, endpoint? s.cfg s.req.ep = some e ∧ e.msgid = true

/-- The two error tiers (60_exceptions R220): a step of a busy block never reports a first-tier status and reports `FAIL` or
`OK` only at the end of a transaction; a step of a block that is not busy never reports `FAIL`, and makes no exchange.
Where the step of such a block starts no transaction, in particular where it raises done with a first-tier status, no
channel register and not `MSGID` changes (R222); where it starts one, it writes no status, and that done is then low is the
model's choice (DESIGN CHOICE, log 16). -/
def Obligations.ErrorTiersNeverMerge : Prop :=
  ∀ s t : State, (linesNow s).reset = false → step s = .next t →
    (s.busy = true → t.res.st = s.res.st ∨ t.res.st = .ok ∨ t.res.st = .fail) ∧
    (s.busy = true → t.res.st ≠ s.res.st → s.cc.st = .success ∨ s.cc.st = .failed) ∧
    (s.busy = false → t.res.st = s.res.st ∨ t.res.st ≠ .fail) ∧
    (s.busy = false → t.cc.st ≠ .idle → t.res.st = s.res.st ∧ t.done = false) ∧
    (s.busy = false → t.cc.st = .idle → t.cc = s.cc ∧ t.msgid = s.msgid ∧ t.disp = s.disp ∧
      t.rdy = (s.rdy || (linesNow s).ready)) ∧
    (s.busy = false → t.res.st ≠ s.res.st → t.cc = s.cc ∧ t.msgid = s.msgid ∧ t.done = true) ∧
    (s.busy = false → t.txbuf = s.txbuf ∧ t.rxbuf = s.rxbuf ∧ t.answers = s.answers)

/-- The host places its next request on a block that is not busy and the block runs it in the step after (60_exceptions R228,
30_encoding R83, R84; that the host's requests stand in a list is the model's choice, log 7): `SetDisplayValue` on a
seven-segment module starts the set of its four digits. -/
def Obligations.HostRequestIsPlacedAndRun : Prop :=
  ∀ (s : State) (d1 d2 d3 d4 : Byte) (hs : List Request), Inv s → s.cfg.moduleType = .sevenSegment → NoReset s →
    s.busy = false → s.start = false → s.host = setDisplayValue d1 d2 d3 d4 :: hs →
    ∃ t, Sys2Proof.core.run 2 s = .next t ∧ t.cc.st = .sending ∧ t.cc.kind = .set ∧ t.cc.phase = .wr ∧
      t.cc.ep = 0x01 ∧ t.cc.want.take 4 = [d1, d2, d3, d4] ∧ t.cc.wlen = 4 ∧ t.cc.wcnt = 36 ∧ t.host = hs ∧
      t.start = false ∧ t.res = s.res

/-! ### Invariants and whole transactions -/

/-- The state after reset meets the invariant, for every legal configuration. -/
def Obligations.ResetMeetsInv : Prop :=
  (∀ c : Config, c.wf = true → Inv (State.resetOf c)) ∧ Inv State.reset

/-- Every step from every state that meets the invariant gives a state that meets it (10_state R38; each space stays in
canonical form). -/
def Obligations.StepKeepsInv : Prop :=
  ∀ s t : State, Inv s → step s = .next t → Inv t

/-- In a state that meets the invariant every step answers a next state: nothing in the block traps or halts
(00_scope R13, 60_exceptions R232). -/
def Obligations.LegalStepNeverStops : Prop :=
  ∀ s : State, Inv s → ∃ t, step s = .next t

/-- The attempts recorded in `CC.seq` agree with the budgets spent, at every step (42_command_channel R148, R149). -/
def Obligations.StepKeepsAccounts : Prop :=
  ∀ s t : State, Inv s → Accounts s → step s = .next t → Accounts t

/-- The bounds of one transaction (42_command_channel R149): at most 36 outer attempts, 144 inner attempts, 144 waits, 324
exchanges for a set; 4 inner attempts, 4 waits, 8 exchanges and no WRITE for a get; and a set that fails has made exactly 36
outer attempts. -/
def Obligations.TransactionBounds : Prop :=
  ∀ s : State, Inv s → Accounts s → s.cc.st ≠ .idle →
    let exchanges := s.cc.seq.countP (fun e => !isWait e)
    (s.cc.kind = .set → count isWrite s ≤ 36 ∧ count isRead s ≤ 144 ∧ count isPoll s ≤ 144 ∧
      count isWait s ≤ 144 ∧ exchanges ≤ 324) ∧
    (s.cc.kind = .get → count isWrite s = 0 ∧ count isRead s ≤ 4 ∧ count isPoll s ≤ 4 ∧ count isWait s ≤ 4 ∧
      exchanges ≤ 8) ∧
    (s.cc.st = .failed → s.cc.kind = .set → count isWrite s = 36)

/-- Every step of a busy block lowers what is left of the operation (42_command_channel R149). -/
def Obligations.BusyStepLowersMeasure : Prop :=
  ∀ s t : State, Inv s → (linesNow s).reset = false → s.busy = true → step s = .next t →
    busyMeasure t < busyMeasure s

/-- Every operation ends, whatever the environment does (42_command_channel R149, 70_reset_and_hazards R251): a busy block
without reset is idle and not busy again, its result reported, after at most as many steps as its measure. It rests on
70_reset_and_hazards R252: every exchange returns (log 13). -/
def Obligations.EveryTransactionEnds : Prop :=
  ∀ s : State, Inv s → NoReset s → s.busy = true →
    ∃ k t, k ≤ busyMeasure s ∧ Sys2Proof.core.run k s = .next t ∧ t.busy = false ∧ t.cc.st = .idle ∧ t.done = true ∧
      (t.res.st = .ok ∨ t.res.st = .fail)

/-- A host's set succeeds in its current outer attempt when the ready signal comes in time and the response validates and
equals the intended value (42_command_channel R149, R131): six steps from the WRITE, `OK`, and one more WRITE in
`CC.seq`. -/
def Obligations.SetSucceedsOnEqualReadBack : Prop :=
  ∀ (s : State) (e : Endpoint) (l1 l2 l3 : Lines) (ls : List Lines) (a1 a2 rx : List Byte) (rest : List (List Byte)),
    Inv s → s.cc.st = .sending → s.cc.phase = .wr → s.cc.kind = .set → s.disp = none →
    endpoint? s.cfg s.cc.ep = some e →
    s.lines = l1 :: l2 :: l3 :: ls → NoReset s → (s.rdy || l1.ready || l2.ready || l3.ready) = true →
    s.answers = a1 :: a2 :: rx :: rest → rx.length = s.cfg.n → trailerOk s.cfg rx = true →
    rx.getD s.cfg.cmdOffset.toNat 0 = s.cc.ep.setWidth 8 → (e.hasSub = true → rx.getD 2 0 = s.cc.sub) →
    ((rx.drop 2).take (s.cfg.n - 3)).take e.width = pad (s.cc.want.take s.cc.wlen.toNat) e.width →
    ∃ t, Sys2Proof.core.run 6 s = .next t ∧ t.cc.st = .idle ∧ t.busy = false ∧ t.res.st = .ok ∧ t.done = true ∧
      count isWrite t = count isWrite s + 1 ∧ t.rxbuf.bytes s.cfg.n = rx ∧ t.answers = rest

/-- A dead or looped-back bus cannot make a transaction succeed (70_reset_and_hazards R253): a response of all zeros, of all
ones, or the poll frame itself is rejected. -/
def Obligations.DeadBusIsRejected : Prop :=
  ∀ s : State, Inv s → (linesNow s).reset = false → s.cc.st = .validating → s.cfg.cmdOffset = 1 →
    (s.rxbuf.bytes s.cfg.n = List.replicate s.cfg.n 0x00 ∨ s.rxbuf.bytes s.cfg.n = List.replicate s.cfg.n 0xFF ∨
      s.rxbuf.bytes s.cfg.n = pollFrame s.cfg) →
    ∃ t, step s = .next t ∧ t.cc.st = .retryInner ∧ t.cc.got = s.cc.got
end

