-- ==== Sys2Proof/Laws/Memory.lean ====
section
/-! SUPPORT. The laws of the byte-addressed spaces: a whole-buffer read gives back the whole-buffer write, every write is in
canonical form, and a byte outside the written sequence reads as unlisted. -/

namespace Sys2Proof.Machine

@[simp] theorem length_zeros (k : Nat) : (zeros k).length = k := by simp [zeros]

@[simp] theorem length_fit (n : Nat) (bs : List Byte) : (fit n bs).length = n := by
  simp [fit]; omega

theorem fit_of_length {n : Nat} {bs : List Byte} (h : bs.length = n) : fit n bs = bs := by
  subst h; simp [fit, zeros]

theorem length_pad {bs : List Byte} {w : Nat} (h : bs.length ≤ w) : (pad bs w).length = w := by
  simp [pad]; omega

@[simp] theorem length_bytes (m : Memory) (n : Nat) : (m.bytes n).length = n := by simp [Memory.bytes]

theorem lookup_cellsFrom_lt (bs : List Byte) : ∀ (a i : Nat), i < a → (cellsFrom a bs).lookup i = none := by
  induction bs with
  | nil => intros; rfl
  | cons b bs ih =>
    intro a i h
    have ha : (i == a) = false := by simpa using Nat.ne_of_lt h
    by_cases hb : b = unlistedByte <;> simp [cellsFrom, hb, List.lookup, ha, ih (a + 1) i (by omega)]

theorem lookup_cellsFrom (bs : List Byte) :
    ∀ (a i : Nat), ((cellsFrom a bs).lookup (a + i)).getD unlistedByte = bs.getD i unlistedByte := by
  induction bs with
  | nil => intros; rfl
  | cons b bs ih =>
    intro a i
    cases i with
    | zero =>
      by_cases hb : b = unlistedByte
      · simp [cellsFrom, hb, lookup_cellsFrom_lt bs (a + 1) a (by omega)]
      · simp [cellsFrom, hb]
    | succ i =>
      have h := ih (a + 1) i
      rw [show a + 1 + i = a + (i + 1) by omega] at h
      have ha : (a + (i + 1) == a) = false := by simp
      by_cases hb : b = unlistedByte <;> simp [cellsFrom, hb, List.lookup, ha, h]

/-- A byte of a written buffer: the sequence's, or unlisted beyond it. -/
@[simp] theorem read_ofBytes (bs : List Byte) (a : Nat) :
    (Memory.ofBytes bs).read a = bs.getD a unlistedByte := by
  have h := lookup_cellsFrom bs 0 a
  simpa [Memory.read, Memory.ofBytes] using h

@[simp] theorem read_empty (a : Nat) : Memory.empty.read a = unlistedByte := rfl

/-- A whole-buffer read gives back the whole-buffer write. -/
theorem bytes_ofBytes {bs : List Byte} {n : Nat} (h : bs.length = n) : (Memory.ofBytes bs).bytes n = bs := by
  subst h
  refine List.ext_getElem (by simp) fun i _ h => ?_
  simp [Memory.bytes, List.getElem?_eq_getElem h]

theorem read_eq_getD_bytes (m : Memory) {n a : Nat} (h : a < n) : m.read a = (m.bytes n).getD a 0 := by
  simp [Memory.bytes, h]

theorem cellsFrom_bounds (bs : List Byte) : ∀ (a : Nat) (c : Host.Cell), c ∈ cellsFrom a bs →
    a ≤ c.1 ∧ c.1 < a + bs.length ∧ c.2 ≠ unlistedByte := by
  induction bs with
  | nil => intro a c h; simp [cellsFrom] at h
  | cons b bs ih =>
    intro a c h
    by_cases hb : b = unlistedByte
    · simp only [cellsFrom, hb, if_true] at h
      have := ih (a + 1) c h
      simp only [List.length_cons]
      exact ⟨by omega, by omega, this.2.2⟩
    · simp only [cellsFrom, hb, if_false, List.mem_cons] at h
      rcases h with rfl | h
      · simp [hb]
      · have := ih (a + 1) c h
        simp only [List.length_cons]
        exact ⟨by omega, by omega, this.2.2⟩

theorem cellsFrom_sorted (bs : List Byte) : ∀ a : Nat, ((cellsFrom a bs).map Prod.fst).Pairwise (· < ·) := by
  induction bs with
  | nil => intro a; simp [cellsFrom]
  | cons b bs ih =>
    intro a
    by_cases hb : b = unlistedByte
    · simpa [cellsFrom, hb] using ih (a + 1)
    · simp only [cellsFrom, hb, if_false, List.map_cons, List.pairwise_cons]
      refine ⟨?_, ih (a + 1)⟩
      intro x hx
      obtain ⟨c, hc, rfl⟩ := List.mem_map.1 hx
      exact (cellsFrom_bounds bs (a + 1) c hc).1

/-- Every whole-buffer write is in canonical form. -/
theorem wf_ofBytes {bs : List Byte} {size : Nat} (h : bs.length ≤ size) : (Memory.ofBytes bs).wf size = true := by
  simp only [Memory.wf, Memory.ofBytes, Bool.and_eq_true, decide_eq_true_eq, List.all_eq_true]
  refine ⟨decide_eq_true (cellsFrom_sorted bs 0), fun c hc => ?_⟩
  have := cellsFrom_bounds bs 0 c hc
  simp [this.2.2]; omega

@[simp] theorem wf_empty (size : Nat) : Memory.empty.wf size = true := by simp [Memory.wf, Memory.empty]

/-- A space in canonical form reads as unlisted at and beyond its size. -/
theorem read_of_wf {m : Memory} {size a : Nat} (h : m.wf size = true) (ha : size ≤ a) : m.read a = unlistedByte := by
  simp only [Memory.wf, Bool.and_eq_true, decide_eq_true_eq, List.all_eq_true] at h
  have : m.cells.lookup a = none := by
    apply List.lookup_eq_none_iff.2
    intro c hc
    have := (h.2 c hc).1
    simp only [bne_iff_ne, ne_eq]
    omega
  simp [Memory.read, this]

end Sys2Proof.Machine
end

