-- ==== Sys2Proof/Laws/Codec.lean ====
section
/-! SUPPORT. The laws of the frame codec: lengths, the bytes of a frame, and the checksum as a map. -/

namespace Sys2Proof.Machine

/-- The command byte is the direction bit OR'd with the endpoint code (30_encoding R71). -/
theorem cmdByte_eq_or : ∀ (w : Bool) (ep : BitVec 7),
    cmdByte w ep = (if w then 0x80 else 0x00) ||| ep.setWidth 8 := by decide

theorem cmdByte_bit7 : ∀ (w : Bool) (ep : BitVec 7), (cmdByte w ep).getLsbD 7 = w := by decide

theorem cmdByte_read_eq_zero : ∀ ep : BitVec 7, cmdByte false ep = 0 → ep = 0 := by decide

theorem length_frameBody {c : Config} {w : Bool} {ep : BitVec 7} {pl : List Byte} (h : pl.length ≤ c.pcap) :
    (frameBody c w ep pl).length = c.pcap + 2 := by
  simp [frameBody, length_pad h]

theorem length_frameOf {c : Config} {w : Bool} {ep : BitVec 7} {pl : List Byte} (hn : 3 ≤ c.n)
    (h : pl.length ≤ c.pcap) : (frameOf c w ep pl).length = c.n := by
  have : c.pcap = c.n - 3 := rfl
  simp [frameOf, length_frameBody h]; omega

theorem length_pollFrame {c : Config} (hn : 3 ≤ c.n) : (pollFrame c).length = c.n :=
  length_frameOf hn (Nat.zero_le _)

@[simp] theorem frameOf_getD_one (c : Config) (w : Bool) (ep : BitVec 7) (pl : List Byte) :
    (frameOf c w ep pl).getD 1 0 = cmdByte w ep := rfl

theorem frameOf_head (c : Config) (w : Bool) (ep : BitVec 7) (pl : List Byte) :
    ∃ rest, frameOf c w ep pl = c.sync :: cmdByte w ep :: rest := ⟨_, rfl⟩

/-- The payload region of a frame is the payload, zero-padded (40_frame_codec R106). -/
theorem payloadOf_frameOf {c : Config} {w : Bool} {ep : BitVec 7} {pl : List Byte} (h : pl.length ≤ c.pcap) :
    payloadOf c (frameOf c w ep pl) = pad pl c.pcap := by
  simp [payloadOf, frameOf, frameBody, length_pad h]

/-- The trailer of a frame is the checksum of what precedes it (30_encoding R73). -/
theorem trailerOk_frameOf {c : Config} {w : Bool} {ep : BitVec 7} {pl : List Byte} (hn : 3 ≤ c.n)
    (h : pl.length ≤ c.pcap) : trailerOk c (frameOf c w ep pl) = true := by
  have hb : (frameBody c w ep pl).length = c.n - 1 := by
    have : c.pcap = c.n - 3 := rfl
    rw [length_frameBody h]; omega
  simp [trailerOk, frameOf, ← hb]

/-! ### The checksum -/

theorem crc8_append (c : Config) (bs : List Byte) (b : Byte) :
    crc8 c (bs ++ [b]) = crcTab c.crcPoly (crc8 c bs ^^^ c.crcXorOut ^^^ b) ^^^ c.crcXorOut := by
  simp [crc8]

theorem crcShift_zero (p : Byte) : crcShift p 0#8 = 0#8 := rfl

theorem crcTab_zero (p : Byte) : crcTab p 0#8 = 0#8 := by simp only [crcTab, crcShifts, crcShift_zero]

/-- The entries of the table of 0x07 but the first are not zero. -/
theorem crcTab_eq_zero : ∀ a : Byte, crcTab 0x07 a = 0 → a = 0 := by decide

theorem crcShift_xor (p a b : Byte) : crcShift p (a ^^^ b) = crcShift p a ^^^ crcShift p b := by
  have h : (a ^^^ b) <<< 1 = a <<< 1 ^^^ b <<< 1 := BitVec.shiftLeft_xor_distrib a b 1
  simp only [crcShift, BitVec.getLsbD_xor, h]
  generalize a <<< 1 = x
  generalize b <<< 1 = y
  have hx : x ^^^ p ^^^ (y ^^^ p) = x ^^^ y := by
    rw [BitVec.xor_comm y, BitVec.xor_assoc, ← BitVec.xor_assoc p, BitVec.xor_self, BitVec.zero_xor]
  have h1 : x ^^^ p ^^^ y = x ^^^ y ^^^ p := by
    rw [BitVec.xor_assoc, BitVec.xor_comm p, BitVec.xor_assoc]
  cases a.getLsbD 7 <;> cases b.getLsbD 7 <;> simp [hx, h1, BitVec.xor_assoc]

/-- The table is linear: that is what makes the checksum a polynomial remainder. -/
theorem crcTab_xor (p a b : Byte) : crcTab p (a ^^^ b) = crcTab p a ^^^ crcTab p b := by
  simp only [crcTab, crcShifts, crcShift_xor]

theorem crcTab_injective {a b : Byte} (h : crcTab 0x07 a = crcTab 0x07 b) : a = b := by
  have h0 : crcTab 0x07 (a ^^^ b) = 0 := by rw [crcTab_xor, h, BitVec.xor_self]; rfl
  have := crcTab_eq_zero _ h0
  simpa using BitVec.xor_eq_zero_iff.1 this

end Sys2Proof.Machine
end

