-- ==== Sys2Proof/Laws/State.lean ====
section
/-! SUPPORT. One lemma per field per update, true by rfl, so that no proof unfolds a record update. -/

namespace Sys2Proof.Machine

/-! ### putResults rv dout s -/

@[simp] theorem putResults_cfg (rv : Draw Word) (dout : Draw (List Byte)) (s : State) : (putResults rv dout s).cfg = s.cfg := rfl
@[simp] theorem putResults_req (rv : Draw Word) (dout : Draw (List Byte)) (s : State) : (putResults rv dout s).req = s.req := rfl
@[simp] theorem putResults_res (rv : Draw Word) (dout : Draw (List Byte)) (s : State) : (putResults rv dout s).res = { s.res with rv := drawRv s.free s.res.rv rv, dout := drawDout s.free s.res.dout dout, dolen := drawDolen s.free s.res.dolen dout } := rfl
@[simp] theorem putResults_txbuf (rv : Draw Word) (dout : Draw (List Byte)) (s : State) : (putResults rv dout s).txbuf = s.txbuf := rfl
@[simp] theorem putResults_rxbuf (rv : Draw Word) (dout : Draw (List Byte)) (s : State) : (putResults rv dout s).rxbuf = s.rxbuf := rfl
@[simp] theorem putResults_cc (rv : Draw Word) (dout : Draw (List Byte)) (s : State) : (putResults rv dout s).cc = s.cc := rfl
@[simp] theorem putResults_rdy (rv : Draw Word) (dout : Draw (List Byte)) (s : State) : (putResults rv dout s).rdy = s.rdy := rfl
@[simp] theorem putResults_msgid (rv : Draw Word) (dout : Draw (List Byte)) (s : State) : (putResults rv dout s).msgid = s.msgid := rfl
@[simp] theorem putResults_start (rv : Draw Word) (dout : Draw (List Byte)) (s : State) : (putResults rv dout s).start = s.start := rfl
@[simp] theorem putResults_done (rv : Draw Word) (dout : Draw (List Byte)) (s : State) : (putResults rv dout s).done = s.done := rfl
@[simp] theorem putResults_disp (rv : Draw Word) (dout : Draw (List Byte)) (s : State) : (putResults rv dout s).disp = s.disp := rfl
@[simp] theorem putResults_host (rv : Draw Word) (dout : Draw (List Byte)) (s : State) : (putResults rv dout s).host = s.host := rfl
@[simp] theorem putResults_lines (rv : Draw Word) (dout : Draw (List Byte)) (s : State) : (putResults rv dout s).lines = s.lines := rfl
@[simp] theorem putResults_answers (rv : Draw Word) (dout : Draw (List Byte)) (s : State) : (putResults rv dout s).answers = s.answers := rfl
@[simp] theorem putResults_free (rv : Draw Word) (dout : Draw (List Byte)) (s : State) : (putResults rv dout s).free = s.free + 1 := rfl

/-! ### finish st rv dout s -/

@[simp] theorem finish_cfg (st : Status) (rv : Draw Word) (dout : Draw (List Byte)) (s : State) : (finish st rv dout s).cfg = s.cfg := rfl
@[simp] theorem finish_req (st : Status) (rv : Draw Word) (dout : Draw (List Byte)) (s : State) : (finish st rv dout s).req = s.req := rfl
@[simp] theorem finish_res (st : Status) (rv : Draw Word) (dout : Draw (List Byte)) (s : State) : (finish st rv dout s).res = { st := st, rv := drawRv s.free s.res.rv rv, dout := drawDout s.free s.res.dout dout, dolen := drawDolen s.free s.res.dolen dout } := rfl
@[simp] theorem finish_txbuf (st : Status) (rv : Draw Word) (dout : Draw (List Byte)) (s : State) : (finish st rv dout s).txbuf = s.txbuf := rfl
@[simp] theorem finish_rxbuf (st : Status) (rv : Draw Word) (dout : Draw (List Byte)) (s : State) : (finish st rv dout s).rxbuf = s.rxbuf := rfl
@[simp] theorem finish_cc (st : Status) (rv : Draw Word) (dout : Draw (List Byte)) (s : State) : (finish st rv dout s).cc = s.cc := rfl
@[simp] theorem finish_rdy (st : Status) (rv : Draw Word) (dout : Draw (List Byte)) (s : State) : (finish st rv dout s).rdy = s.rdy := rfl
@[simp] theorem finish_msgid (st : Status) (rv : Draw Word) (dout : Draw (List Byte)) (s : State) : (finish st rv dout s).msgid = s.msgid := rfl
@[simp] theorem finish_start (st : Status) (rv : Draw Word) (dout : Draw (List Byte)) (s : State) : (finish st rv dout s).start = s.start := rfl
@[simp] theorem finish_done (st : Status) (rv : Draw Word) (dout : Draw (List Byte)) (s : State) : (finish st rv dout s).done = true := rfl
@[simp] theorem finish_disp (st : Status) (rv : Draw Word) (dout : Draw (List Byte)) (s : State) : (finish st rv dout s).disp = s.disp := rfl
@[simp] theorem finish_host (st : Status) (rv : Draw Word) (dout : Draw (List Byte)) (s : State) : (finish st rv dout s).host = s.host := rfl
@[simp] theorem finish_lines (st : Status) (rv : Draw Word) (dout : Draw (List Byte)) (s : State) : (finish st rv dout s).lines = s.lines := rfl
@[simp] theorem finish_answers (st : Status) (rv : Draw Word) (dout : Draw (List Byte)) (s : State) : (finish st rv dout s).answers = s.answers := rfl
@[simp] theorem finish_free (st : Status) (rv : Draw Word) (dout : Draw (List Byte)) (s : State) : (finish st rv dout s).free = s.free + 1 := rfl

/-! ### raise st s -/

@[simp] theorem raise_cfg (st : Status) (s : State) : (raise st s).cfg = s.cfg := rfl
@[simp] theorem raise_req (st : Status) (s : State) : (raise st s).req = s.req := rfl
@[simp] theorem raise_res (st : Status) (s : State) : (raise st s).res = { st := st, rv := Config.freeWord s.free, dout := Memory.ofBytes (freeBytes s.free), dolen := Config.freeLen s.free } := rfl
@[simp] theorem raise_txbuf (st : Status) (s : State) : (raise st s).txbuf = s.txbuf := rfl
@[simp] theorem raise_rxbuf (st : Status) (s : State) : (raise st s).rxbuf = s.rxbuf := rfl
@[simp] theorem raise_cc (st : Status) (s : State) : (raise st s).cc = s.cc := rfl
@[simp] theorem raise_rdy (st : Status) (s : State) : (raise st s).rdy = s.rdy := rfl
@[simp] theorem raise_msgid (st : Status) (s : State) : (raise st s).msgid = s.msgid := rfl
@[simp] theorem raise_start (st : Status) (s : State) : (raise st s).start = s.start := rfl
@[simp] theorem raise_done (st : Status) (s : State) : (raise st s).done = true := rfl
@[simp] theorem raise_disp (st : Status) (s : State) : (raise st s).disp = s.disp := rfl
@[simp] theorem raise_host (st : Status) (s : State) : (raise st s).host = s.host := rfl
@[simp] theorem raise_lines (st : Status) (s : State) : (raise st s).lines = s.lines := rfl
@[simp] theorem raise_answers (st : Status) (s : State) : (raise st s).answers = s.answers := rfl
@[simp] theorem raise_free (st : Status) (s : State) : (raise st s).free = s.free + 1 := rfl

/-! ### loadTx tx s -/

@[simp] theorem loadTx_cfg (tx : List Byte) (s : State) : (loadTx tx s).cfg = s.cfg := rfl
@[simp] theorem loadTx_req (tx : List Byte) (s : State) : (loadTx tx s).req = s.req := rfl
@[simp] theorem loadTx_res (tx : List Byte) (s : State) : (loadTx tx s).res = s.res := rfl
@[simp] theorem loadTx_txbuf (tx : List Byte) (s : State) : (loadTx tx s).txbuf = Memory.ofBytes tx := rfl
@[simp] theorem loadTx_rxbuf (tx : List Byte) (s : State) : (loadTx tx s).rxbuf = s.rxbuf := rfl
@[simp] theorem loadTx_cc (tx : List Byte) (s : State) : (loadTx tx s).cc = s.cc := rfl
@[simp] theorem loadTx_rdy (tx : List Byte) (s : State) : (loadTx tx s).rdy = s.rdy := rfl
@[simp] theorem loadTx_msgid (tx : List Byte) (s : State) : (loadTx tx s).msgid = s.msgid := rfl
@[simp] theorem loadTx_start (tx : List Byte) (s : State) : (loadTx tx s).start = s.start := rfl
@[simp] theorem loadTx_done (tx : List Byte) (s : State) : (loadTx tx s).done = s.done := rfl
@[simp] theorem loadTx_disp (tx : List Byte) (s : State) : (loadTx tx s).disp = s.disp := rfl
@[simp] theorem loadTx_host (tx : List Byte) (s : State) : (loadTx tx s).host = s.host := rfl
@[simp] theorem loadTx_lines (tx : List Byte) (s : State) : (loadTx tx s).lines = s.lines := rfl
@[simp] theorem loadTx_answers (tx : List Byte) (s : State) : (loadTx tx s).answers = s.answers := rfl
@[simp] theorem loadTx_free (tx : List Byte) (s : State) : (loadTx tx s).free = s.free := rfl

/-! ### exchange s -/

@[simp] theorem exchange_cfg (s : State) : (exchange s).cfg = s.cfg := rfl
@[simp] theorem exchange_req (s : State) : (exchange s).req = s.req := rfl
@[simp] theorem exchange_res (s : State) : (exchange s).res = s.res := rfl
@[simp] theorem exchange_txbuf (s : State) : (exchange s).txbuf = s.txbuf := rfl
@[simp] theorem exchange_rxbuf (s : State) : (exchange s).rxbuf = Memory.ofBytes (answer s) := rfl
@[simp] theorem exchange_rdy (s : State) : (exchange s).rdy = s.rdy := rfl
@[simp] theorem exchange_msgid (s : State) : (exchange s).msgid = s.msgid := rfl
@[simp] theorem exchange_start (s : State) : (exchange s).start = s.start := rfl
@[simp] theorem exchange_done (s : State) : (exchange s).done = s.done := rfl
@[simp] theorem exchange_disp (s : State) : (exchange s).disp = s.disp := rfl
@[simp] theorem exchange_host (s : State) : (exchange s).host = s.host := rfl
@[simp] theorem exchange_lines (s : State) : (exchange s).lines = s.lines := rfl
@[simp] theorem exchange_answers (s : State) : (exchange s).answers = s.answers.tail := rfl
@[simp] theorem exchange_free (s : State) : (exchange s).free = s.free + 1 := rfl
@[simp] theorem exchange_cc_st (s : State) : (exchange s).cc.st = s.cc.st := rfl
@[simp] theorem exchange_cc_kind (s : State) : (exchange s).cc.kind = s.cc.kind := rfl
@[simp] theorem exchange_cc_phase (s : State) : (exchange s).cc.phase = s.cc.phase := rfl
@[simp] theorem exchange_cc_ep (s : State) : (exchange s).cc.ep = s.cc.ep := rfl
@[simp] theorem exchange_cc_subEn (s : State) : (exchange s).cc.subEn = s.cc.subEn := rfl
@[simp] theorem exchange_cc_sub (s : State) : (exchange s).cc.sub = s.cc.sub := rfl
@[simp] theorem exchange_cc_want (s : State) : (exchange s).cc.want = s.cc.want := rfl
@[simp] theorem exchange_cc_wlen (s : State) : (exchange s).cc.wlen = s.cc.wlen := rfl
@[simp] theorem exchange_cc_wcnt (s : State) : (exchange s).cc.wcnt = s.cc.wcnt := rfl
@[simp] theorem exchange_cc_rcnt (s : State) : (exchange s).cc.rcnt = s.cc.rcnt := rfl
@[simp] theorem exchange_cc_got (s : State) : (exchange s).cc.got = s.cc.got := rfl
@[simp] theorem exchange_cc_seq (s : State) : (exchange s).cc.seq = s.cc.seq ++ [.exch (s.txbuf.bytes s.cfg.n) (answer s)] := rfl
@[simp] theorem exchange_cc_mid (s : State) : (exchange s).cc.mid = s.cc.mid := rfl

/-! ### (waitForSignal s).2 -/

@[simp] theorem wait_cfg (s : State) : ((waitForSignal s).2).cfg = s.cfg := rfl
@[simp] theorem wait_req (s : State) : ((waitForSignal s).2).req = s.req := rfl
@[simp] theorem wait_res (s : State) : ((waitForSignal s).2).res = s.res := rfl
@[simp] theorem wait_txbuf (s : State) : ((waitForSignal s).2).txbuf = s.txbuf := rfl
@[simp] theorem wait_rxbuf (s : State) : ((waitForSignal s).2).rxbuf = s.rxbuf := rfl
@[simp] theorem wait_rdy (s : State) : ((waitForSignal s).2).rdy = false := rfl
@[simp] theorem wait_msgid (s : State) : ((waitForSignal s).2).msgid = s.msgid := rfl
@[simp] theorem wait_start (s : State) : ((waitForSignal s).2).start = s.start := rfl
@[simp] theorem wait_done (s : State) : ((waitForSignal s).2).done = s.done := rfl
@[simp] theorem wait_disp (s : State) : ((waitForSignal s).2).disp = s.disp := rfl
@[simp] theorem wait_host (s : State) : ((waitForSignal s).2).host = s.host := rfl
@[simp] theorem wait_lines (s : State) : ((waitForSignal s).2).lines = s.lines := rfl
@[simp] theorem wait_answers (s : State) : ((waitForSignal s).2).answers = s.answers := rfl
@[simp] theorem wait_free (s : State) : ((waitForSignal s).2).free = s.free := rfl
@[simp] theorem wait_cc_st (s : State) : ((waitForSignal s).2).cc.st = s.cc.st := rfl
@[simp] theorem wait_cc_kind (s : State) : ((waitForSignal s).2).cc.kind = s.cc.kind := rfl
@[simp] theorem wait_cc_phase (s : State) : ((waitForSignal s).2).cc.phase = s.cc.phase := rfl
@[simp] theorem wait_cc_ep (s : State) : ((waitForSignal s).2).cc.ep = s.cc.ep := rfl
@[simp] theorem wait_cc_subEn (s : State) : ((waitForSignal s).2).cc.subEn = s.cc.subEn := rfl
@[simp] theorem wait_cc_sub (s : State) : ((waitForSignal s).2).cc.sub = s.cc.sub := rfl
@[simp] theorem wait_cc_want (s : State) : ((waitForSignal s).2).cc.want = s.cc.want := rfl
@[simp] theorem wait_cc_wlen (s : State) : ((waitForSignal s).2).cc.wlen = s.cc.wlen := rfl
@[simp] theorem wait_cc_wcnt (s : State) : ((waitForSignal s).2).cc.wcnt = s.cc.wcnt := rfl
@[simp] theorem wait_cc_rcnt (s : State) : ((waitForSignal s).2).cc.rcnt = s.cc.rcnt := rfl
@[simp] theorem wait_cc_got (s : State) : ((waitForSignal s).2).cc.got = s.cc.got := rfl
@[simp] theorem wait_cc_seq (s : State) : ((waitForSignal s).2).cc.seq = s.cc.seq ++ [.wait s.rdy] := rfl
@[simp] theorem wait_cc_mid (s : State) : ((waitForSignal s).2).cc.mid = s.cc.mid := rfl

/-! ### onSignal s -/

@[simp] theorem onSignal_cfg (s : State) : (onSignal s).cfg = s.cfg := rfl
@[simp] theorem onSignal_req (s : State) : (onSignal s).req = s.req := rfl
@[simp] theorem onSignal_res (s : State) : (onSignal s).res = s.res := rfl
@[simp] theorem onSignal_txbuf (s : State) : (onSignal s).txbuf = s.txbuf := rfl
@[simp] theorem onSignal_rxbuf (s : State) : (onSignal s).rxbuf = s.rxbuf := rfl
@[simp] theorem onSignal_cc (s : State) : (onSignal s).cc = s.cc := rfl
@[simp] theorem onSignal_rdy (s : State) : (onSignal s).rdy = true := rfl
@[simp] theorem onSignal_msgid (s : State) : (onSignal s).msgid = s.msgid := rfl
@[simp] theorem onSignal_start (s : State) : (onSignal s).start = s.start := rfl
@[simp] theorem onSignal_done (s : State) : (onSignal s).done = s.done := rfl
@[simp] theorem onSignal_disp (s : State) : (onSignal s).disp = s.disp := rfl
@[simp] theorem onSignal_host (s : State) : (onSignal s).host = s.host := rfl
@[simp] theorem onSignal_lines (s : State) : (onSignal s).lines = s.lines := rfl
@[simp] theorem onSignal_answers (s : State) : (onSignal s).answers = s.answers := rfl
@[simp] theorem onSignal_free (s : State) : (onSignal s).free = s.free := rfl

/-! ### beginSet ep subEn want s -/

@[simp] theorem beginSet_cfg (ep : BitVec 7) (subEn : Bool) (want : List Byte) (s : State) : (beginSet ep subEn want s).cfg = s.cfg := rfl
@[simp] theorem beginSet_req (ep : BitVec 7) (subEn : Bool) (want : List Byte) (s : State) : (beginSet ep subEn want s).req = s.req := rfl
@[simp] theorem beginSet_res (ep : BitVec 7) (subEn : Bool) (want : List Byte) (s : State) : (beginSet ep subEn want s).res = s.res := rfl
@[simp] theorem beginSet_txbuf (ep : BitVec 7) (subEn : Bool) (want : List Byte) (s : State) : (beginSet ep subEn want s).txbuf = s.txbuf := rfl
@[simp] theorem beginSet_rxbuf (ep : BitVec 7) (subEn : Bool) (want : List Byte) (s : State) : (beginSet ep subEn want s).rxbuf = s.rxbuf := rfl
@[simp] theorem beginSet_rdy (ep : BitVec 7) (subEn : Bool) (want : List Byte) (s : State) : (beginSet ep subEn want s).rdy = s.rdy := rfl
@[simp] theorem beginSet_msgid (ep : BitVec 7) (subEn : Bool) (want : List Byte) (s : State) : (beginSet ep subEn want s).msgid = nextMsgid s ep := rfl
@[simp] theorem beginSet_start (ep : BitVec 7) (subEn : Bool) (want : List Byte) (s : State) : (beginSet ep subEn want s).start = s.start := rfl
@[simp] theorem beginSet_done (ep : BitVec 7) (subEn : Bool) (want : List Byte) (s : State) : (beginSet ep subEn want s).done = false := rfl
@[simp] theorem beginSet_disp (ep : BitVec 7) (subEn : Bool) (want : List Byte) (s : State) : (beginSet ep subEn want s).disp = s.disp := rfl
@[simp] theorem beginSet_host (ep : BitVec 7) (subEn : Bool) (want : List Byte) (s : State) : (beginSet ep subEn want s).host = s.host := rfl
@[simp] theorem beginSet_lines (ep : BitVec 7) (subEn : Bool) (want : List Byte) (s : State) : (beginSet ep subEn want s).lines = s.lines := rfl
@[simp] theorem beginSet_answers (ep : BitVec 7) (subEn : Bool) (want : List Byte) (s : State) : (beginSet ep subEn want s).answers = s.answers := rfl
@[simp] theorem beginSet_free (ep : BitVec 7) (subEn : Bool) (want : List Byte) (s : State) : (beginSet ep subEn want s).free = s.free := rfl
@[simp] theorem beginSet_cc_st (ep : BitVec 7) (subEn : Bool) (want : List Byte) (s : State) : (beginSet ep subEn want s).cc.st = .sending := rfl
@[simp] theorem beginSet_cc_kind (ep : BitVec 7) (subEn : Bool) (want : List Byte) (s : State) : (beginSet ep subEn want s).cc.kind = .set := rfl
@[simp] theorem beginSet_cc_phase (ep : BitVec 7) (subEn : Bool) (want : List Byte) (s : State) : (beginSet ep subEn want s).cc.phase = .wr := rfl
@[simp] theorem beginSet_cc_ep (ep : BitVec 7) (subEn : Bool) (want : List Byte) (s : State) : (beginSet ep subEn want s).cc.ep = ep := rfl
@[simp] theorem beginSet_cc_subEn (ep : BitVec 7) (subEn : Bool) (want : List Byte) (s : State) : (beginSet ep subEn want s).cc.subEn = subEn := rfl
@[simp] theorem beginSet_cc_sub (ep : BitVec 7) (subEn : Bool) (want : List Byte) (s : State) : (beginSet ep subEn want s).cc.sub = s.req.sub := rfl
@[simp] theorem beginSet_cc_want (ep : BitVec 7) (subEn : Bool) (want : List Byte) (s : State) : (beginSet ep subEn want s).cc.want = fit s.cfg.pcap want := rfl
@[simp] theorem beginSet_cc_wlen (ep : BitVec 7) (subEn : Bool) (want : List Byte) (s : State) : (beginSet ep subEn want s).cc.wlen = BitVec.ofNat 8 want.length := rfl
@[simp] theorem beginSet_cc_wcnt (ep : BitVec 7) (subEn : Bool) (want : List Byte) (s : State) : (beginSet ep subEn want s).cc.wcnt = s.cfg.wBudget := rfl
@[simp] theorem beginSet_cc_rcnt (ep : BitVec 7) (subEn : Bool) (want : List Byte) (s : State) : (beginSet ep subEn want s).cc.rcnt = s.cc.rcnt := rfl
@[simp] theorem beginSet_cc_got (ep : BitVec 7) (subEn : Bool) (want : List Byte) (s : State) : (beginSet ep subEn want s).cc.got = s.cc.got := rfl
@[simp] theorem beginSet_cc_seq (ep : BitVec 7) (subEn : Bool) (want : List Byte) (s : State) : (beginSet ep subEn want s).cc.seq = [] := rfl
@[simp] theorem beginSet_cc_mid (ep : BitVec 7) (subEn : Bool) (want : List Byte) (s : State) : (beginSet ep subEn want s).cc.mid = s.msgid := rfl

/-! ### beginGet ep subEn s -/

@[simp] theorem beginGet_cfg (ep : BitVec 7) (subEn : Bool) (s : State) : (beginGet ep subEn s).cfg = s.cfg := rfl
@[simp] theorem beginGet_req (ep : BitVec 7) (subEn : Bool) (s : State) : (beginGet ep subEn s).req = s.req := rfl
@[simp] theorem beginGet_res (ep : BitVec 7) (subEn : Bool) (s : State) : (beginGet ep subEn s).res = s.res := rfl
@[simp] theorem beginGet_txbuf (ep : BitVec 7) (subEn : Bool) (s : State) : (beginGet ep subEn s).txbuf = s.txbuf := rfl
@[simp] theorem beginGet_rxbuf (ep : BitVec 7) (subEn : Bool) (s : State) : (beginGet ep subEn s).rxbuf = s.rxbuf := rfl
@[simp] theorem beginGet_rdy (ep : BitVec 7) (subEn : Bool) (s : State) : (beginGet ep subEn s).rdy = s.rdy := rfl
@[simp] theorem beginGet_msgid (ep : BitVec 7) (subEn : Bool) (s : State) : (beginGet ep subEn s).msgid = nextMsgid s ep := rfl
@[simp] theorem beginGet_start (ep : BitVec 7) (subEn : Bool) (s : State) : (beginGet ep subEn s).start = s.start := rfl
@[simp] theorem beginGet_done (ep : BitVec 7) (subEn : Bool) (s : State) : (beginGet ep subEn s).done = false := rfl
@[simp] theorem beginGet_disp (ep : BitVec 7) (subEn : Bool) (s : State) : (beginGet ep subEn s).disp = s.disp := rfl
@[simp] theorem beginGet_host (ep : BitVec 7) (subEn : Bool) (s : State) : (beginGet ep subEn s).host = s.host := rfl
@[simp] theorem beginGet_lines (ep : BitVec 7) (subEn : Bool) (s : State) : (beginGet ep subEn s).lines = s.lines := rfl
@[simp] theorem beginGet_answers (ep : BitVec 7) (subEn : Bool) (s : State) : (beginGet ep subEn s).answers = s.answers := rfl
@[simp] theorem beginGet_free (ep : BitVec 7) (subEn : Bool) (s : State) : (beginGet ep subEn s).free = s.free := rfl
@[simp] theorem beginGet_cc_st (ep : BitVec 7) (subEn : Bool) (s : State) : (beginGet ep subEn s).cc.st = .sending := rfl
@[simp] theorem beginGet_cc_kind (ep : BitVec 7) (subEn : Bool) (s : State) : (beginGet ep subEn s).cc.kind = .get := rfl
@[simp] theorem beginGet_cc_phase (ep : BitVec 7) (subEn : Bool) (s : State) : (beginGet ep subEn s).cc.phase = .rd := rfl
@[simp] theorem beginGet_cc_ep (ep : BitVec 7) (subEn : Bool) (s : State) : (beginGet ep subEn s).cc.ep = ep := rfl
@[simp] theorem beginGet_cc_subEn (ep : BitVec 7) (subEn : Bool) (s : State) : (beginGet ep subEn s).cc.subEn = subEn := rfl
@[simp] theorem beginGet_cc_sub (ep : BitVec 7) (subEn : Bool) (s : State) : (beginGet ep subEn s).cc.sub = s.req.sub := rfl
@[simp] theorem beginGet_cc_want (ep : BitVec 7) (subEn : Bool) (s : State) : (beginGet ep subEn s).cc.want = s.cc.want := rfl
@[simp] theorem beginGet_cc_wlen (ep : BitVec 7) (subEn : Bool) (s : State) : (beginGet ep subEn s).cc.wlen = s.cc.wlen := rfl
@[simp] theorem beginGet_cc_wcnt (ep : BitVec 7) (subEn : Bool) (s : State) : (beginGet ep subEn s).cc.wcnt = s.cc.wcnt := rfl
@[simp] theorem beginGet_cc_rcnt (ep : BitVec 7) (subEn : Bool) (s : State) : (beginGet ep subEn s).cc.rcnt = s.cfg.rBudget := rfl
@[simp] theorem beginGet_cc_got (ep : BitVec 7) (subEn : Bool) (s : State) : (beginGet ep subEn s).cc.got = s.cc.got := rfl
@[simp] theorem beginGet_cc_seq (ep : BitVec 7) (subEn : Bool) (s : State) : (beginGet ep subEn s).cc.seq = [] := rfl
@[simp] theorem beginGet_cc_mid (ep : BitVec 7) (subEn : Bool) (s : State) : (beginGet ep subEn s).cc.mid = s.msgid := rfl

/-! ### goto st s -/

@[simp] theorem goto_cfg (st : SeqState) (s : State) : (goto st s).cfg = s.cfg := rfl
@[simp] theorem goto_req (st : SeqState) (s : State) : (goto st s).req = s.req := rfl
@[simp] theorem goto_res (st : SeqState) (s : State) : (goto st s).res = s.res := rfl
@[simp] theorem goto_txbuf (st : SeqState) (s : State) : (goto st s).txbuf = s.txbuf := rfl
@[simp] theorem goto_rxbuf (st : SeqState) (s : State) : (goto st s).rxbuf = s.rxbuf := rfl
@[simp] theorem goto_rdy (st : SeqState) (s : State) : (goto st s).rdy = s.rdy := rfl
@[simp] theorem goto_msgid (st : SeqState) (s : State) : (goto st s).msgid = s.msgid := rfl
@[simp] theorem goto_start (st : SeqState) (s : State) : (goto st s).start = s.start := rfl
@[simp] theorem goto_done (st : SeqState) (s : State) : (goto st s).done = s.done := rfl
@[simp] theorem goto_disp (st : SeqState) (s : State) : (goto st s).disp = s.disp := rfl
@[simp] theorem goto_host (st : SeqState) (s : State) : (goto st s).host = s.host := rfl
@[simp] theorem goto_lines (st : SeqState) (s : State) : (goto st s).lines = s.lines := rfl
@[simp] theorem goto_answers (st : SeqState) (s : State) : (goto st s).answers = s.answers := rfl
@[simp] theorem goto_free (st : SeqState) (s : State) : (goto st s).free = s.free := rfl
@[simp] theorem goto_cc_st (st : SeqState) (s : State) : (goto st s).cc.st = st := rfl
@[simp] theorem goto_cc_kind (st : SeqState) (s : State) : (goto st s).cc.kind = s.cc.kind := rfl
@[simp] theorem goto_cc_phase (st : SeqState) (s : State) : (goto st s).cc.phase = s.cc.phase := rfl
@[simp] theorem goto_cc_ep (st : SeqState) (s : State) : (goto st s).cc.ep = s.cc.ep := rfl
@[simp] theorem goto_cc_subEn (st : SeqState) (s : State) : (goto st s).cc.subEn = s.cc.subEn := rfl
@[simp] theorem goto_cc_sub (st : SeqState) (s : State) : (goto st s).cc.sub = s.cc.sub := rfl
@[simp] theorem goto_cc_want (st : SeqState) (s : State) : (goto st s).cc.want = s.cc.want := rfl
@[simp] theorem goto_cc_wlen (st : SeqState) (s : State) : (goto st s).cc.wlen = s.cc.wlen := rfl
@[simp] theorem goto_cc_wcnt (st : SeqState) (s : State) : (goto st s).cc.wcnt = s.cc.wcnt := rfl
@[simp] theorem goto_cc_rcnt (st : SeqState) (s : State) : (goto st s).cc.rcnt = s.cc.rcnt := rfl
@[simp] theorem goto_cc_got (st : SeqState) (s : State) : (goto st s).cc.got = s.cc.got := rfl
@[simp] theorem goto_cc_seq (st : SeqState) (s : State) : (goto st s).cc.seq = s.cc.seq := rfl
@[simp] theorem goto_cc_mid (st : SeqState) (s : State) : (goto st s).cc.mid = s.cc.mid := rfl

/-! ### takeResponse s -/

@[simp] theorem takeResponse_cfg (s : State) : (takeResponse s).cfg = s.cfg := rfl
@[simp] theorem takeResponse_req (s : State) : (takeResponse s).req = s.req := rfl
@[simp] theorem takeResponse_res (s : State) : (takeResponse s).res = s.res := rfl
@[simp] theorem takeResponse_txbuf (s : State) : (takeResponse s).txbuf = s.txbuf := rfl
@[simp] theorem takeResponse_rxbuf (s : State) : (takeResponse s).rxbuf = s.rxbuf := rfl
@[simp] theorem takeResponse_rdy (s : State) : (takeResponse s).rdy = s.rdy := rfl
@[simp] theorem takeResponse_msgid (s : State) : (takeResponse s).msgid = s.msgid := rfl
@[simp] theorem takeResponse_start (s : State) : (takeResponse s).start = s.start := rfl
@[simp] theorem takeResponse_done (s : State) : (takeResponse s).done = s.done := rfl
@[simp] theorem takeResponse_disp (s : State) : (takeResponse s).disp = s.disp := rfl
@[simp] theorem takeResponse_host (s : State) : (takeResponse s).host = s.host := rfl
@[simp] theorem takeResponse_lines (s : State) : (takeResponse s).lines = s.lines := rfl
@[simp] theorem takeResponse_answers (s : State) : (takeResponse s).answers = s.answers := rfl
@[simp] theorem takeResponse_free (s : State) : (takeResponse s).free = s.free := rfl
@[simp] theorem takeResponse_cc_st (s : State) : (takeResponse s).cc.st = s.cc.st := rfl
@[simp] theorem takeResponse_cc_kind (s : State) : (takeResponse s).cc.kind = s.cc.kind := rfl
@[simp] theorem takeResponse_cc_phase (s : State) : (takeResponse s).cc.phase = s.cc.phase := rfl
@[simp] theorem takeResponse_cc_ep (s : State) : (takeResponse s).cc.ep = s.cc.ep := rfl
@[simp] theorem takeResponse_cc_subEn (s : State) : (takeResponse s).cc.subEn = s.cc.subEn := rfl
@[simp] theorem takeResponse_cc_sub (s : State) : (takeResponse s).cc.sub = s.cc.sub := rfl
@[simp] theorem takeResponse_cc_want (s : State) : (takeResponse s).cc.want = s.cc.want := rfl
@[simp] theorem takeResponse_cc_wlen (s : State) : (takeResponse s).cc.wlen = s.cc.wlen := rfl
@[simp] theorem takeResponse_cc_wcnt (s : State) : (takeResponse s).cc.wcnt = s.cc.wcnt := rfl
@[simp] theorem takeResponse_cc_rcnt (s : State) : (takeResponse s).cc.rcnt = s.cc.rcnt := rfl
@[simp] theorem takeResponse_cc_got (s : State) : (takeResponse s).cc.got = payloadOf s.cfg (s.rxbuf.bytes s.cfg.n) := rfl
@[simp] theorem takeResponse_cc_seq (s : State) : (takeResponse s).cc.seq = s.cc.seq := rfl
@[simp] theorem takeResponse_cc_mid (s : State) : (takeResponse s).cc.mid = s.cc.mid := rfl

/-! ### decRcnt s -/

@[simp] theorem decRcnt_cfg (s : State) : (decRcnt s).cfg = s.cfg := rfl
@[simp] theorem decRcnt_req (s : State) : (decRcnt s).req = s.req := rfl
@[simp] theorem decRcnt_res (s : State) : (decRcnt s).res = s.res := rfl
@[simp] theorem decRcnt_txbuf (s : State) : (decRcnt s).txbuf = s.txbuf := rfl
@[simp] theorem decRcnt_rxbuf (s : State) : (decRcnt s).rxbuf = s.rxbuf := rfl
@[simp] theorem decRcnt_rdy (s : State) : (decRcnt s).rdy = s.rdy := rfl
@[simp] theorem decRcnt_msgid (s : State) : (decRcnt s).msgid = s.msgid := rfl
@[simp] theorem decRcnt_start (s : State) : (decRcnt s).start = s.start := rfl
@[simp] theorem decRcnt_done (s : State) : (decRcnt s).done = s.done := rfl
@[simp] theorem decRcnt_disp (s : State) : (decRcnt s).disp = s.disp := rfl
@[simp] theorem decRcnt_host (s : State) : (decRcnt s).host = s.host := rfl
@[simp] theorem decRcnt_lines (s : State) : (decRcnt s).lines = s.lines := rfl
@[simp] theorem decRcnt_answers (s : State) : (decRcnt s).answers = s.answers := rfl
@[simp] theorem decRcnt_free (s : State) : (decRcnt s).free = s.free := rfl
@[simp] theorem decRcnt_cc_st (s : State) : (decRcnt s).cc.st = s.cc.st := rfl
@[simp] theorem decRcnt_cc_kind (s : State) : (decRcnt s).cc.kind = s.cc.kind := rfl
@[simp] theorem decRcnt_cc_phase (s : State) : (decRcnt s).cc.phase = s.cc.phase := rfl
@[simp] theorem decRcnt_cc_ep (s : State) : (decRcnt s).cc.ep = s.cc.ep := rfl
@[simp] theorem decRcnt_cc_subEn (s : State) : (decRcnt s).cc.subEn = s.cc.subEn := rfl
@[simp] theorem decRcnt_cc_sub (s : State) : (decRcnt s).cc.sub = s.cc.sub := rfl
@[simp] theorem decRcnt_cc_want (s : State) : (decRcnt s).cc.want = s.cc.want := rfl
@[simp] theorem decRcnt_cc_wlen (s : State) : (decRcnt s).cc.wlen = s.cc.wlen := rfl
@[simp] theorem decRcnt_cc_wcnt (s : State) : (decRcnt s).cc.wcnt = s.cc.wcnt := rfl
@[simp] theorem decRcnt_cc_rcnt (s : State) : (decRcnt s).cc.rcnt = s.cc.rcnt - 1 := rfl
@[simp] theorem decRcnt_cc_got (s : State) : (decRcnt s).cc.got = s.cc.got := rfl
@[simp] theorem decRcnt_cc_seq (s : State) : (decRcnt s).cc.seq = s.cc.seq := rfl
@[simp] theorem decRcnt_cc_mid (s : State) : (decRcnt s).cc.mid = s.cc.mid := rfl

/-! ### decWcnt s -/

@[simp] theorem decWcnt_cfg (s : State) : (decWcnt s).cfg = s.cfg := rfl
@[simp] theorem decWcnt_req (s : State) : (decWcnt s).req = s.req := rfl
@[simp] theorem decWcnt_res (s : State) : (decWcnt s).res = s.res := rfl
@[simp] theorem decWcnt_txbuf (s : State) : (decWcnt s).txbuf = s.txbuf := rfl
@[simp] theorem decWcnt_rxbuf (s : State) : (decWcnt s).rxbuf = s.rxbuf := rfl
@[simp] theorem decWcnt_rdy (s : State) : (decWcnt s).rdy = s.rdy := rfl
@[simp] theorem decWcnt_msgid (s : State) : (decWcnt s).msgid = s.msgid := rfl
@[simp] theorem decWcnt_start (s : State) : (decWcnt s).start = s.start := rfl
@[simp] theorem decWcnt_done (s : State) : (decWcnt s).done = s.done := rfl
@[simp] theorem decWcnt_disp (s : State) : (decWcnt s).disp = s.disp := rfl
@[simp] theorem decWcnt_host (s : State) : (decWcnt s).host = s.host := rfl
@[simp] theorem decWcnt_lines (s : State) : (decWcnt s).lines = s.lines := rfl
@[simp] theorem decWcnt_answers (s : State) : (decWcnt s).answers = s.answers := rfl
@[simp] theorem decWcnt_free (s : State) : (decWcnt s).free = s.free := rfl
@[simp] theorem decWcnt_cc_st (s : State) : (decWcnt s).cc.st = s.cc.st := rfl
@[simp] theorem decWcnt_cc_kind (s : State) : (decWcnt s).cc.kind = s.cc.kind := rfl
@[simp] theorem decWcnt_cc_phase (s : State) : (decWcnt s).cc.phase = s.cc.phase := rfl
@[simp] theorem decWcnt_cc_ep (s : State) : (decWcnt s).cc.ep = s.cc.ep := rfl
@[simp] theorem decWcnt_cc_subEn (s : State) : (decWcnt s).cc.subEn = s.cc.subEn := rfl
@[simp] theorem decWcnt_cc_sub (s : State) : (decWcnt s).cc.sub = s.cc.sub := rfl
@[simp] theorem decWcnt_cc_want (s : State) : (decWcnt s).cc.want = s.cc.want := rfl
@[simp] theorem decWcnt_cc_wlen (s : State) : (decWcnt s).cc.wlen = s.cc.wlen := rfl
@[simp] theorem decWcnt_cc_wcnt (s : State) : (decWcnt s).cc.wcnt = s.cc.wcnt - 1 := rfl
@[simp] theorem decWcnt_cc_rcnt (s : State) : (decWcnt s).cc.rcnt = s.cc.rcnt := rfl
@[simp] theorem decWcnt_cc_got (s : State) : (decWcnt s).cc.got = s.cc.got := rfl
@[simp] theorem decWcnt_cc_seq (s : State) : (decWcnt s).cc.seq = s.cc.seq := rfl
@[simp] theorem decWcnt_cc_mid (s : State) : (decWcnt s).cc.mid = s.cc.mid := rfl

/-! ### sendAgain ph s -/

@[simp] theorem sendAgain_cfg (ph : Phase) (s : State) : (sendAgain ph s).cfg = s.cfg := rfl
@[simp] theorem sendAgain_req (ph : Phase) (s : State) : (sendAgain ph s).req = s.req := rfl
@[simp] theorem sendAgain_res (ph : Phase) (s : State) : (sendAgain ph s).res = s.res := rfl
@[simp] theorem sendAgain_txbuf (ph : Phase) (s : State) : (sendAgain ph s).txbuf = s.txbuf := rfl
@[simp] theorem sendAgain_rxbuf (ph : Phase) (s : State) : (sendAgain ph s).rxbuf = s.rxbuf := rfl
@[simp] theorem sendAgain_rdy (ph : Phase) (s : State) : (sendAgain ph s).rdy = s.rdy := rfl
@[simp] theorem sendAgain_msgid (ph : Phase) (s : State) : (sendAgain ph s).msgid = s.msgid := rfl
@[simp] theorem sendAgain_start (ph : Phase) (s : State) : (sendAgain ph s).start = s.start := rfl
@[simp] theorem sendAgain_done (ph : Phase) (s : State) : (sendAgain ph s).done = s.done := rfl
@[simp] theorem sendAgain_disp (ph : Phase) (s : State) : (sendAgain ph s).disp = s.disp := rfl
@[simp] theorem sendAgain_host (ph : Phase) (s : State) : (sendAgain ph s).host = s.host := rfl
@[simp] theorem sendAgain_lines (ph : Phase) (s : State) : (sendAgain ph s).lines = s.lines := rfl
@[simp] theorem sendAgain_answers (ph : Phase) (s : State) : (sendAgain ph s).answers = s.answers := rfl
@[simp] theorem sendAgain_free (ph : Phase) (s : State) : (sendAgain ph s).free = s.free := rfl
@[simp] theorem sendAgain_cc_st (ph : Phase) (s : State) : (sendAgain ph s).cc.st = .sending := rfl
@[simp] theorem sendAgain_cc_kind (ph : Phase) (s : State) : (sendAgain ph s).cc.kind = s.cc.kind := rfl
@[simp] theorem sendAgain_cc_phase (ph : Phase) (s : State) : (sendAgain ph s).cc.phase = ph := rfl
@[simp] theorem sendAgain_cc_ep (ph : Phase) (s : State) : (sendAgain ph s).cc.ep = s.cc.ep := rfl
@[simp] theorem sendAgain_cc_subEn (ph : Phase) (s : State) : (sendAgain ph s).cc.subEn = s.cc.subEn := rfl
@[simp] theorem sendAgain_cc_sub (ph : Phase) (s : State) : (sendAgain ph s).cc.sub = s.cc.sub := rfl
@[simp] theorem sendAgain_cc_want (ph : Phase) (s : State) : (sendAgain ph s).cc.want = s.cc.want := rfl
@[simp] theorem sendAgain_cc_wlen (ph : Phase) (s : State) : (sendAgain ph s).cc.wlen = s.cc.wlen := rfl
@[simp] theorem sendAgain_cc_wcnt (ph : Phase) (s : State) : (sendAgain ph s).cc.wcnt = s.cc.wcnt := rfl
@[simp] theorem sendAgain_cc_rcnt (ph : Phase) (s : State) : (sendAgain ph s).cc.rcnt = s.cc.rcnt := rfl
@[simp] theorem sendAgain_cc_got (ph : Phase) (s : State) : (sendAgain ph s).cc.got = s.cc.got := rfl
@[simp] theorem sendAgain_cc_seq (ph : Phase) (s : State) : (sendAgain ph s).cc.seq = s.cc.seq := rfl
@[simp] theorem sendAgain_cc_mid (ph : Phase) (s : State) : (sendAgain ph s).cc.mid = s.cc.mid := rfl

/-! ### takeStart s -/

@[simp] theorem takeStart_cfg (s : State) : (takeStart s).cfg = s.cfg := rfl
@[simp] theorem takeStart_req (s : State) : (takeStart s).req = s.req := rfl
@[simp] theorem takeStart_res (s : State) : (takeStart s).res = s.res := rfl
@[simp] theorem takeStart_txbuf (s : State) : (takeStart s).txbuf = s.txbuf := rfl
@[simp] theorem takeStart_rxbuf (s : State) : (takeStart s).rxbuf = s.rxbuf := rfl
@[simp] theorem takeStart_cc (s : State) : (takeStart s).cc = s.cc := rfl
@[simp] theorem takeStart_rdy (s : State) : (takeStart s).rdy = s.rdy := rfl
@[simp] theorem takeStart_msgid (s : State) : (takeStart s).msgid = s.msgid := rfl
@[simp] theorem takeStart_start (s : State) : (takeStart s).start = false := rfl
@[simp] theorem takeStart_done (s : State) : (takeStart s).done = s.done := rfl
@[simp] theorem takeStart_disp (s : State) : (takeStart s).disp = s.disp := rfl
@[simp] theorem takeStart_host (s : State) : (takeStart s).host = s.host := rfl
@[simp] theorem takeStart_lines (s : State) : (takeStart s).lines = s.lines := rfl
@[simp] theorem takeStart_answers (s : State) : (takeStart s).answers = s.answers := rfl
@[simp] theorem takeStart_free (s : State) : (takeStart s).free = s.free := rfl

/-! ### applyReset s -/

@[simp] theorem applyReset_cfg (s : State) : (applyReset s).cfg = s.cfg := rfl
@[simp] theorem applyReset_req (s : State) : (applyReset s).req = (State.resetOf s.cfg).req := rfl
@[simp] theorem applyReset_res (s : State) : (applyReset s).res = (State.resetOf s.cfg).res := rfl
@[simp] theorem applyReset_txbuf (s : State) : (applyReset s).txbuf = (State.resetOf s.cfg).txbuf := rfl
@[simp] theorem applyReset_rxbuf (s : State) : (applyReset s).rxbuf = (State.resetOf s.cfg).rxbuf := rfl
@[simp] theorem applyReset_cc (s : State) : (applyReset s).cc = (State.resetOf s.cfg).cc := rfl
@[simp] theorem applyReset_rdy (s : State) : (applyReset s).rdy = (State.resetOf s.cfg).rdy := rfl
@[simp] theorem applyReset_msgid (s : State) : (applyReset s).msgid = (State.resetOf s.cfg).msgid := rfl
@[simp] theorem applyReset_start (s : State) : (applyReset s).start = (State.resetOf s.cfg).start := rfl
@[simp] theorem applyReset_done (s : State) : (applyReset s).done = (State.resetOf s.cfg).done := rfl
@[simp] theorem applyReset_disp (s : State) : (applyReset s).disp = (State.resetOf s.cfg).disp := rfl
@[simp] theorem applyReset_host (s : State) : (applyReset s).host = s.host := rfl
@[simp] theorem applyReset_lines (s : State) : (applyReset s).lines = s.lines := rfl
@[simp] theorem applyReset_answers (s : State) : (applyReset s).answers = s.answers := rfl
@[simp] theorem applyReset_free (s : State) : (applyReset s).free = s.free := rfl

/-! ### placeRequest r s -/

@[simp] theorem placeRequest_cfg (r : Request) (s : State) : (placeRequest r s).cfg = s.cfg := rfl
@[simp] theorem placeRequest_res (r : Request) (s : State) : (placeRequest r s).res = s.res := rfl
@[simp] theorem placeRequest_txbuf (r : Request) (s : State) : (placeRequest r s).txbuf = s.txbuf := rfl
@[simp] theorem placeRequest_rxbuf (r : Request) (s : State) : (placeRequest r s).rxbuf = s.rxbuf := rfl
@[simp] theorem placeRequest_cc (r : Request) (s : State) : (placeRequest r s).cc = s.cc := rfl
@[simp] theorem placeRequest_rdy (r : Request) (s : State) : (placeRequest r s).rdy = s.rdy := rfl
@[simp] theorem placeRequest_msgid (r : Request) (s : State) : (placeRequest r s).msgid = s.msgid := rfl
@[simp] theorem placeRequest_start (r : Request) (s : State) : (placeRequest r s).start = true := rfl
@[simp] theorem placeRequest_done (r : Request) (s : State) : (placeRequest r s).done = s.done := rfl
@[simp] theorem placeRequest_disp (r : Request) (s : State) : (placeRequest r s).disp = s.disp := rfl
@[simp] theorem placeRequest_host (r : Request) (s : State) : (placeRequest r s).host = s.host := rfl
@[simp] theorem placeRequest_lines (r : Request) (s : State) : (placeRequest r s).lines = s.lines := rfl
@[simp] theorem placeRequest_answers (r : Request) (s : State) : (placeRequest r s).answers = s.answers := rfl
@[simp] theorem placeRequest_free (r : Request) (s : State) : (placeRequest r s).free = s.free := rfl

/-! ### sample s -/

@[simp] theorem sample_cfg (s : State) : (sample s).cfg = s.cfg := rfl
@[simp] theorem sample_req (s : State) : (sample s).req = s.req := rfl
@[simp] theorem sample_res (s : State) : (sample s).res = s.res := rfl
@[simp] theorem sample_txbuf (s : State) : (sample s).txbuf = s.txbuf := rfl
@[simp] theorem sample_rxbuf (s : State) : (sample s).rxbuf = s.rxbuf := rfl
@[simp] theorem sample_cc (s : State) : (sample s).cc = s.cc := rfl
@[simp] theorem sample_rdy (s : State) : (sample s).rdy = (s.rdy || (linesNow s).ready) := by
  unfold sample; split <;> simp_all [onSignal]
@[simp] theorem sample_msgid (s : State) : (sample s).msgid = s.msgid := rfl
@[simp] theorem sample_start (s : State) : (sample s).start = s.start := rfl
@[simp] theorem sample_done (s : State) : (sample s).done = s.done := rfl
@[simp] theorem sample_disp (s : State) : (sample s).disp = s.disp := rfl
@[simp] theorem sample_host (s : State) : (sample s).host = s.host := rfl
@[simp] theorem sample_lines (s : State) : (sample s).lines = s.lines.tail := rfl
@[simp] theorem sample_answers (s : State) : (sample s).answers = s.answers := rfl
@[simp] theorem sample_free (s : State) : (sample s).free = s.free + 1 := rfl

@[simp] theorem wait_fst (s : State) : (waitForSignal s).1 = s.rdy := rfl

end Sys2Proof.Machine
end

