-- ==== Sys2Proof/Laws/Legal.lean ====
section
/-! SUPPORT. What a legal configuration and a legal segment table give, and the laws of the transport's answers. -/

namespace Sys2Proof.Machine

/-! ### A legal configuration (00_scope R8, 10_state R23) -/

theorem three_le_n {c : Config} (h : c.wf = true) : 3 ≤ c.n := by
  simp only [Config.wf, Config.frameLenOk, Bool.and_eq_true, decide_eq_true_eq] at h
  exact h.1.1.1.1.2.1

theorem seven_le_n {c : Config} (h : c.wf = true) (hm : c.moduleType = .sevenSegment) : 7 ≤ c.n := by
  simp only [Config.wf, Config.frameLenOk, hm, Bool.and_eq_true, Bool.or_eq_true, decide_eq_true_eq] at h
  rcases h.1.1.1.1.2.2 with h | h
  · cases h
  · exact h

theorem sync_eq {c : Config} (h : c.wf = true) : c.sync = 0x80 := by
  simp only [Config.wf, Config.framingOk, Bool.and_eq_true, beq_iff_eq] at h
  exact h.1.1.1.1.1.1

theorem crcPoly_eq {c : Config} (h : c.wf = true) : c.crcPoly = 0x07 := by
  simp only [Config.wf, Config.framingOk, Bool.and_eq_true, beq_iff_eq] at h
  exact h.1.1.1.1.1.2

theorem budgets {c : Config} (h : c.wf = true) : c.wBudget = 36 ∧ c.rBudget = 4 := by
  simp only [Config.wf, Config.budgetsOk, Bool.and_eq_true, beq_iff_eq] at h
  exact h.1.1.1.2.1

theorem seg_wf {c : Config} (h : c.wf = true) : c.seg.wf = true := by
  simp only [Config.wf, Bool.and_eq_true] at h
  exact h.2

/-! ### A legal segment table (30_encoding R86) -/

theorem digits_length {t : SegTable} (h : t.wf = true) : t.digits.length = 16 := by
  simp only [SegTable.wf, Bool.and_eq_true, beq_iff_eq] at h
  exact h.1.1.1.1.1.1

/-- Distinct digits have distinct masks. -/
theorem segDigit_inj {t : SegTable} (h : t.wf = true) {a b : Nat} (ha : a < 16) (hb : b < 16) :
    segDigit t a = segDigit t b ↔ a = b := by
  have hl := digits_length h
  simp only [SegTable.wf, Bool.and_eq_true, decide_eq_true_eq] at h
  have hn := h.1.1.1.1.1.2
  have ha' : a < t.digits.length := by omega
  have hb' : b < t.digits.length := by omega
  simp only [segDigit, List.getD_eq_getElem?_getD, List.getElem?_eq_getElem ha', List.getElem?_eq_getElem hb',
    Option.getD_some]
  exact hn.getElem_inj_iff

/-- A digit's mask has no decimal point. -/
theorem hasDp_segDigit {t : SegTable} (h : t.wf = true) {a : Nat} (ha : a < 16) : hasDp (segDigit t a) = false := by
  have hl := digits_length h
  simp only [SegTable.wf, Bool.and_eq_true, List.all_eq_true] at h
  have ha' : a < t.digits.length := by omega
  have hd : segDigit t a ∈ t.digits := by
    simp [segDigit, List.getElem?_eq_getElem ha']
  have h7 := h.1.1.1.2 _ hd
  generalize segDigit t a = d at h7
  revert h7 d
  decide

/-- The point added to a mask. -/
theorem hasDp_withDp : ∀ d : Byte, hasDp (withDp d) = true := by decide

/-! ### The transport's answers (41_transport_adapter R120) -/

@[simp] theorem length_answer (s : State) : (answer s).length = s.cfg.n := by
  unfold answer; split <;> simp

theorem answer_of_listed {s : State} {rx : List Byte} {rest : List (List Byte)} (h : s.answers = rx :: rest)
    (hl : rx.length = s.cfg.n) : answer s = rx := by
  simp [answer, h, fit_of_length hl]

/-- After an exchange `RXBUF` holds what the transport presented. -/
theorem exchange_rxbuf_bytes (s : State) : (exchange s).rxbuf.bytes s.cfg.n = answer s :=
  bytes_ofBytes (length_answer s)

/-- The payload a set keeps is the one it was given. -/
theorem take_fit {n : Nat} {bs : List Byte} (h : bs.length ≤ n) : (fit n bs).take bs.length = bs := by
  simp [fit, List.take_of_length_le h]

end Sys2Proof.Machine
end

