-- ==== Sys2Proof/Laws/PerInstr.lean ====
section
/-! SUPPORT. A family of facts about each instruction as syntax: the form of its word and the module type its row belongs
to (30_encoding R70, R76, R80). -/

/-- The form of an instruction's word. A host operation is one byte of `OP` below the sync marker, on a block of either
module type. A frame is two bytes, the sync marker first; it belongs to one module type exactly when its endpoint code is
not zero. -/
def Sys2Proof.Laws.WordForm.Statement (i : Sys2Proof.Instr) : Prop :=
  (∃ op : Sys2Proof.Byte, Sys2Proof.encode i = [op] ∧ op.toNat < 0x80 ∧ i.boundTo = none) ∨
  (∃ b : Sys2Proof.Byte, Sys2Proof.encode i = [Sys2Proof.syncByte, b] ∧ (b.setWidth 7 = 0#7 ↔ i.boundTo = none))

namespace Sys2Proof.Laws

theorem WordForm.fcCrc8 : WordForm.Statement .fcCrc8 := .inl ⟨_, rfl, by decide, rfl⟩
theorem WordForm.fcEncode : WordForm.Statement .fcEncode := .inl ⟨_, rfl, by decide, rfl⟩
theorem WordForm.fcDecode : WordForm.Statement .fcDecode := .inl ⟨_, rfl, by decide, rfl⟩
theorem WordForm.fcPoll : WordForm.Statement .fcPoll := .inl ⟨_, rfl, by decide, rfl⟩
theorem WordForm.fcCheck : WordForm.Statement .fcCheck := .inl ⟨_, rfl, by decide, rfl⟩
theorem WordForm.ccSet : WordForm.Statement .ccSet := .inl ⟨_, rfl, by decide, rfl⟩
theorem WordForm.ccGet : WordForm.Statement .ccGet := .inl ⟨_, rfl, by decide, rfl⟩
theorem WordForm.veDig : WordForm.Statement .veDig := .inl ⟨_, rfl, by decide, rfl⟩
theorem WordForm.veChr : WordForm.Statement .veChr := .inl ⟨_, rfl, by decide, rfl⟩
theorem WordForm.veI2d : WordForm.Statement .veI2d := .inl ⟨_, rfl, by decide, rfl⟩
theorem WordForm.veClz : WordForm.Statement .veClz := .inl ⟨_, rfl, by decide, rfl⟩
theorem WordForm.veInt : WordForm.Statement .veInt := .inl ⟨_, rfl, by decide, rfl⟩
theorem WordForm.veFix : WordForm.Statement .veFix := .inl ⟨_, rfl, by decide, rfl⟩
theorem WordForm.veStr : WordForm.Statement .veStr := .inl ⟨_, rfl, by decide, rfl⟩
theorem WordForm.veClk : WordForm.Statement .veClk := .inl ⟨_, rfl, by decide, rfl⟩
theorem WordForm.veDur : WordForm.Statement .veDur := .inl ⟨_, rfl, by decide, rfl⟩
theorem WordForm.veTmp : WordForm.Statement .veTmp := .inl ⟨_, rfl, by decide, rfl⟩
theorem WordForm.dispInt : WordForm.Statement .dispInt := .inl ⟨_, rfl, by decide, rfl⟩
theorem WordForm.dispFix : WordForm.Statement .dispFix := .inl ⟨_, rfl, by decide, rfl⟩
theorem WordForm.dispStr : WordForm.Statement .dispStr := .inl ⟨_, rfl, by decide, rfl⟩
theorem WordForm.dispClk : WordForm.Statement .dispClk := .inl ⟨_, rfl, by decide, rfl⟩
theorem WordForm.dispDur : WordForm.Statement .dispDur := .inl ⟨_, rfl, by decide, rfl⟩
theorem WordForm.dispTmp : WordForm.Statement .dispTmp := .inl ⟨_, rfl, by decide, rfl⟩
theorem WordForm.poll : WordForm.Statement .poll := .inr ⟨_, rfl, by decide⟩
theorem WordForm.rdDisplayValue : WordForm.Statement .rdDisplayValue := .inr ⟨_, rfl, by decide⟩
theorem WordForm.rdBrightness : WordForm.Statement .rdBrightness := .inr ⟨_, rfl, by decide⟩
theorem WordForm.rdColon : WordForm.Statement .rdColon := .inr ⟨_, rfl, by decide⟩
theorem WordForm.rdApostrophe : WordForm.Statement .rdApostrophe := .inr ⟨_, rfl, by decide⟩
theorem WordForm.wrDisplayValue : WordForm.Statement .wrDisplayValue := .inr ⟨_, rfl, by decide⟩
theorem WordForm.wrBrightness : WordForm.Statement .wrBrightness := .inr ⟨_, rfl, by decide⟩
theorem WordForm.wrColon : WordForm.Statement .wrColon := .inr ⟨_, rfl, by decide⟩
theorem WordForm.wrApostrophe : WordForm.Statement .wrApostrophe := .inr ⟨_, rfl, by decide⟩
theorem WordForm.rdColor : WordForm.Statement .rdColor := .inr ⟨_, rfl, by decide⟩
theorem WordForm.rdRawPassthrough : WordForm.Statement .rdRawPassthrough := .inr ⟨_, rfl, by decide⟩
theorem WordForm.rdLine : WordForm.Statement .rdLine := .inr ⟨_, rfl, by decide⟩
theorem WordForm.rdCustomCharacter : WordForm.Statement .rdCustomCharacter := .inr ⟨_, rfl, by decide⟩
theorem WordForm.wrColor : WordForm.Statement .wrColor := .inr ⟨_, rfl, by decide⟩
theorem WordForm.wrRawPassthrough : WordForm.Statement .wrRawPassthrough := .inr ⟨_, rfl, by decide⟩
theorem WordForm.wrLine : WordForm.Statement .wrLine := .inr ⟨_, rfl, by decide⟩
theorem WordForm.wrCustomCharacter : WordForm.Statement .wrCustomCharacter := .inr ⟨_, rfl, by decide⟩

end Sys2Proof.Laws
end

