-- ==== Sys2Proof/Laws/Steps.lean ====
section
/-! SUPPORT. What one step can do, said once: the inversion of every shared operation and of `step`, so that no later proof
unfolds one. -/

namespace Sys2Proof.Machine

/-! ### Host operations -/

@[simp] theorem setPending_none : setPending none = false := rfl

@[simp] theorem setPending_nil (allOk : Bool) : setPending (some ⟨[], allOk⟩) = false := rfl

@[simp] theorem setPending_cons (r : SetReq) (rest : List SetReq) (allOk : Bool) :
    setPending (some ⟨r :: rest, allOk⟩) = true := rfl

/-- When a set of a display operation is still to start. -/
theorem setPending_eq_true {d : Option DispRun} :
    setPending d = true ↔ ∃ r rest allOk, d = some ⟨r :: rest, allOk⟩ := by
  rcases d with _ | ⟨_ | ⟨r, rest⟩, allOk⟩ <;> simp

theorem busy_eq_false {s : State} : s.busy = false ↔ s.cc.st = .idle ∧ setPending s.disp = false := by
  simp [State.busy]

theorem busy_of_st {s : State} (h : s.cc.st ≠ .idle) : s.busy = true := by simp [State.busy, h]

@[simp] theorem sample_busy (s : State) : (sample s).busy = s.busy := by simp [State.busy]

@[simp] theorem takeStart_busy (s : State) : (takeStart s).busy = s.busy := rfl

/-- The measure looks at the channel and the display progress only. -/
theorem busyMeasure_congr {s t : State} (hc : t.cc = s.cc) (hd : t.disp = s.disp) : busyMeasure t = busyMeasure s := by
  unfold busyMeasure setMeasure innerMeasure setsLeft
  rw [hc, hd]

theorem stepNextSet_of {s : State} {r : SetReq} {rest : List SetReq} {allOk : Bool}
    (h : s.disp = some ⟨r :: rest, allOk⟩) :
    stepNextSet s = beginDispSet r { s with disp := some ⟨rest, allOk⟩ } := by
  simp [stepNextSet, h]

theorem hostOp_of_free {f : State → State} {s : State} (h : s.busy = false) : hostOp f s = .next (f s) := by
  simp [hostOp, h]

theorem hostOp_of_busy {f : State → State} {s : State} (h : s.busy = true) : hostOp f s = .next s := by
  simp [hostOp, h]

@[simp] theorem finishExcept_ok (rv : Draw Word) (dout : Draw (List Byte)) (s : State) :
    finishExcept (.ok (rv, dout)) s = finish .ok rv dout s := rfl

@[simp] theorem finishExcept_error (st : Status) (s : State) : finishExcept (.error st) s = raise st s := rfl

/-- A host operation of the frame codec or the value encoder, and every `raise`, is one `finish`. -/
theorem finishExcept_eq (r : Except Status (Draw Word × Draw (List Byte))) (s : State) :
    ∃ st rv dout, finishExcept r s = finish st rv dout s := by
  rcases r with st | ⟨rv, dout⟩ <;> exact ⟨_, _, _, rfl⟩

theorem encodeFrame_error {c : Config} {w : Bool} {ep : BitVec 7} {pl : List Byte} {st : Status}
    (h : encodeFrame c w ep pl = .error st) : st = .errCap := by
  unfold encodeFrame at h; split at h <;> cases h; rfl

theorem decodeFrame_error {c : Config} {f : List Byte} {st : Status}
    (h : decodeFrame c f = .error st) : st = .errLen := by
  unfold decodeFrame at h; split at h <;> cases h; rfl

theorem crcOk_error {c : Config} {f : List Byte} {st : Status} (h : crcOk c f = .error st) : st = .errLen := by
  unfold crcOk at h; split at h <;> cases h; rfl

theorem intDisplay_error {t : SegTable} {n : Int} {b : Bool} {st : Status}
    (h : intDisplay t n b = .error st) : st = .errArg := by
  unfold intDisplay at h; split at h <;> cases h; rfl

theorem fixDisplay_error {t : SegTable} {n p : Int} {b : Bool} {st : Status}
    (h : fixDisplay t n b p = .error st) : st = .errArg := by
  unfold fixDisplay at h
  split at h
  · cases h; rfl
  · split at h <;> cases h; rfl

theorem clkDisplay_error {t : SegTable} {n m : Int} {a b : Bool} {st : Status}
    (h : clkDisplay t n m a b = .error st) : st = .errArg := by
  unfold clkDisplay at h; split at h <;> cases h; rfl

theorem durDisplay_error {t : SegTable} {a b c m : Int} {st : Status}
    (h : durDisplay t a b c m = .error st) : st = .errArg := by
  unfold durDisplay at h
  split at h
  · cases h; rfl
  · simp only at h
    cases hi : intDisplay t (durValue a b c (durMode a b m)) true with
    | error st' => rw [hi] at h; cases h; exact intDisplay_error hi
    | ok d => rw [hi] at h; cases h

theorem tmpDisplay_error {t : SegTable} {r : TempRound} {n : Int} {b : Bool} {st : Status}
    (h : tmpDisplay t r n b = .error st) : st = .errArg := by
  unfold tmpDisplay at h; split at h <;> cases h; rfl

/-- What a value encoding raises is `ERR_ARG` and nothing else (43_value_encoder R160). -/
theorem map_error {α β : Type} {f : α → β} {r : Except Status α} {st st' : Status}
    (he : ∀ x, r = .error x → x = st') (h : r.map f = .error st) : st = st' := by
  cases r with
  | error x => cases h; exact he _ rfl
  | ok a => cases h

theorem showInt_error {s : State} {st : Status} (h : showInt s = .error st) : st = .errArg :=
  map_error (fun _ => intDisplay_error) h

theorem showFix_error {s : State} {st : Status} (h : showFix s = .error st) : st = .errArg :=
  map_error (fun _ => fixDisplay_error) h

theorem showStr_error {s : State} {st : Status} (h : showStr s = .error st) : st = .errArg := by cases h

theorem showClk_error {s : State} {st : Status} (h : showClk s = .error st) : st = .errArg :=
  map_error (fun _ => clkDisplay_error) h

theorem showDur_error {s : State} {st : Status} (h : showDur s = .error st) : st = .errArg :=
  map_error (fun _ => durDisplay_error) h

theorem showTmp_error {s : State} {st : Status} (h : showTmp s = .error st) : st = .errArg :=
  map_error (fun _ => tmpDisplay_error) h

theorem pcap_le (c : Config) : c.pcap ≤ 255 := by
  have : c.pcap = c.frameLen.toNat - 3 := rfl
  omega

theorem length_payloadOf_le (c : Config) (f : List Byte) : (payloadOf c f).length ≤ c.pcap := by
  simp [payloadOf]

/-- A frame fits `DOUT`. -/
theorem length_frameOf_le {c : Config} {w : Bool} {ep : BitVec 7} {pl : List Byte} (h : pl.length ≤ c.pcap) :
    (frameOf c w ep pl).length ≤ 255 := by
  have : c.pcap = c.frameLen.toNat - 3 := rfl
  simp [frameOf, length_frameBody h]; omega

/-! ### What a host operation leaves, at a block that is not busy -/

/-- The four ways a host operation can end its first step. -/
inductive HostStep (i : Instr) (s : State) : State → Prop
  /-- it ends: results that fit `DOUT`, and a status of the first tier, or `OK` -/
  | ends (st : Status) (rv : Draw Word) (dout : Draw (List Byte)) (h : st ≠ .fail)
      (hd : ∀ bs, dout = .val bs → bs.length ≤ 255) :
      HostStep i s (finish st rv dout s)
  /-- an admitted `CC.SET` -/
  | set (want : List Byte) (hi : i = .ccSet) (h : admitSet s = .ok want) :
      HostStep i s (beginSet s.req.ep s.req.subEn want { s with disp := none })
  /-- an admitted `CC.GET` -/
  | get (e : Endpoint) (hi : i = .ccGet) (h : admitGet s = .ok e) :
      HostStep i s (beginGet s.req.ep s.req.subEn { s with disp := none })
  /-- a display operation whose operands are in range -/
  | display (rv : Draw Word) (d : Digits) (more : List SetReq)
      (hi : i ∈ [Instr.dispInt, .dispFix, .dispStr, .dispClk, .dispDur, .dispTmp])
      (hm : s.cfg.moduleType = .sevenSegment) (hmore : more = [] ∨ more = tmpIndicators) :
      HostStep i s (beginDispSet ⟨0x01, d.toList⟩
        { putResults rv (.val d.toList) s with disp := some ⟨more, true⟩ })

theorem HostStep.ofRaise {i : Instr} {s : State} {st : Status} (h : st ≠ .fail) : HostStep i s (raise st s) :=
  .ends st .any .any h (by intro _ h; cases h)

theorem HostStep.ofFinishExcept {i : Instr} {s : State} {r : Except Status (Draw Word × Draw (List Byte))}
    (h : ∀ st, r = .error st → st ≠ .fail) (hd : ∀ rv bs, r = .ok (rv, .val bs) → bs.length ≤ 255) :
    HostStep i s (finishExcept r s) := by
  rcases r with st | ⟨rv, dout⟩
  · exact .ofRaise (h st rfl)
  · exact .ends .ok rv dout (by decide) (fun bs hb => hd rv bs (by rw [hb]))

theorem HostStep.ofShown {i : Instr} {s : State} {r : Except Status Shown}
    (h : ∀ st, r = .error st → st = .errArg) : HostStep i s (finishShown r s) := by
  refine .ofFinishExcept (fun st hst => ?_) (fun rv bs hb => ?_)
  · rw [map_error h hst]; decide
  · rcases r with st | p <;> cases hb; simp [Digits.toList]

theorem HostStep.ofDisp {i : Instr} {s : State} {r : Except Status Shown} {more : List SetReq}
    (hi : i ∈ [Instr.dispInt, .dispFix, .dispStr, .dispClk, .dispDur, .dispTmp])
    (hmore : more = [] ∨ more = tmpIndicators)
    (h : ∀ st, r = .error st → st = .errArg) : HostStep i s (dispOp r more s) := by
  unfold dispOp
  split
  · exact .ofRaise (by decide)
  · rename_i hm
    rcases r with st | ⟨rv, d⟩
    · rw [h st rfl]; exact .ofRaise (by decide)
    · exact .display rv d more hi (by simpa using hm) hmore

theorem admitGet_error {s : State} {st : Status} (h : admitGet s = .error st) : st = .errArg := by
  unfold admitGet at h
  split at h
  · cases h; rfl
  · split at h <;> cases h; rfl

theorem admitGet_ok {s : State} {e : Endpoint} (h : admitGet s = .ok e) :
    endpoint? s.cfg s.req.ep = some e ∧ s.req.subEn = e.hasSub := by
  unfold admitGet at h
  split at h
  · cases h
  · split at h
    · cases h
    · cases h; simp_all

theorem admitSet_error {s : State} {st : Status} (h : admitSet s = .error st) : st = .errArg ∨ st = .errCap := by
  unfold admitSet at h
  split at h
  · rename_i hg; cases h; exact .inl (admitGet_error hg)
  · simp only at h
    split at h
    · cases h; exact .inr rfl
    · split at h <;> cases h; exact .inl rfl

theorem admitSet_ok {s : State} {want : List Byte} (h : admitSet s = .ok want) :
    ∃ e, endpoint? s.cfg s.req.ep = some e ∧ s.req.subEn = e.hasSub ∧ want = wantOf e s.req.sub (dinBytes s) ∧
      want.length ≤ s.cfg.pcap ∧ want.length ≤ e.width := by
  unfold admitSet at h
  split at h
  · cases h
  · rename_i e hg
    obtain ⟨h1, h2⟩ := admitGet_ok hg
    simp only at h
    split at h
    · cases h
    · split at h
      · cases h
      · cases h
        exact ⟨e, h1, h2, rfl, by omega, by omega⟩

/-- Every host operation, started on a block that is not busy, ends in one of the four ways. -/
theorem exec_host_cases {i : Instr} {s : State} (hi : (encode i).length = 1) (hs : s.busy = false) :
    ∃ t, exec i s = .next t ∧ HostStep i s t := by
  cases i <;> first
    | (exfalso; revert hi; decide)
    | refine ⟨_, if_pos hs, ?_⟩
  case fcCrc8 => exact .ends _ _ _ (by decide) (by intro _ h; cases h)
  case fcPoll => exact .ends _ _ _ (by decide) (by rintro _ ⟨⟩; exact length_frameOf_le (Nat.zero_le _))
  case fcEncode =>
    refine .ofFinishExcept (fun st h => by rw [map_error (fun _ => encodeFrame_error) h]; decide) fun rv bs h => ?_
    unfold encodeFrame at h
    split at h
    · cases h
    · cases h; exact length_frameOf_le (by omega)
  case fcDecode =>
    refine .ofFinishExcept (fun st h => by rw [map_error (fun _ => decodeFrame_error) h]; decide) fun rv bs h => ?_
    unfold decodeFrame at h
    split at h
    · cases h
    · cases h; exact (length_payloadOf_le _ _).trans (pcap_le _)
  case fcCheck =>
    refine .ofFinishExcept (fun st h => by rw [map_error (fun _ => crcOk_error) h]; decide) fun rv bs h => ?_
    cases hc : crcOk s.cfg (dinBytes s) <;> rw [hc] at h <;> cases h
  case ccSet =>
    beta_reduce
    cases h : admitSet s with
    | error st => 
      rcases admitSet_error h with rfl | rfl
      · exact .ofRaise (st := .errArg) (by decide)
      · exact .ofRaise (st := .errCap) (by decide)
    | ok want => exact .set want rfl h
  case ccGet =>
    beta_reduce
    cases h : admitGet s with
    | error st => obtain rfl := admitGet_error h; exact .ofRaise (st := .errArg) (by decide)
    | ok e => exact .get e rfl h
  case veDig | veChr =>
    simp only
    split
    · exact .ofRaise (by decide)
    · exact .ends _ _ _ (by decide) (by intro _ h; cases h)
  case veI2d | veClz =>
    simp only
    split
    · exact .ofRaise (by decide)
    · exact .ends _ _ _ (by decide) (by rintro _ ⟨⟩; simp [Digits.toList])
  case veInt => exact .ofShown fun _ => showInt_error
  case veFix => exact .ofShown fun _ => showFix_error
  case veStr => exact .ofShown fun _ => showStr_error
  case veClk => exact .ofShown fun _ => showClk_error
  case veDur => exact .ofShown fun _ => showDur_error
  case veTmp => exact .ofShown fun _ => showTmp_error
  case dispInt => exact .ofDisp (by decide) (.inl rfl) fun _ => showInt_error
  case dispFix => exact .ofDisp (by decide) (.inl rfl) fun _ => showFix_error
  case dispStr => exact .ofDisp (by decide) (.inl rfl) fun _ => showStr_error
  case dispClk => exact .ofDisp (by decide) (.inl rfl) fun _ => showClk_error
  case dispDur => exact .ofDisp (by decide) (.inl rfl) fun _ => showDur_error
  case dispTmp => exact .ofDisp (by decide) (.inr rfl) fun _ => showTmp_error

/-! ### Frames -/

/-- What a WRITE row's meaning answers. -/
theorem writeFrame_next {m : ModuleType} {ep : BitVec 7} {s t : State} (h : writeFrame m ep s = .next t) :
    s.cfg.moduleType = m ∧ s.cc.st = .sending ∧ s.cc.phase = .wr ∧ s.cc.ep = ep ∧ t = stepWrite s := by
  unfold writeFrame at h
  split at h
  · rename_i hs; cases h; simpa [sends, and_assoc] using hs
  · cases h

/-- What a READ row's meaning answers. -/
theorem readFrame_next {m : ModuleType} {ep : BitVec 7} {s t : State} (h : readFrame m ep s = .next t) :
    s.cfg.moduleType = m ∧ s.cc.st = .sending ∧ s.cc.phase = .rd ∧ s.cc.ep = ep ∧ t = stepRead s := by
  unfold readFrame at h
  split at h
  · rename_i hs; cases h; simpa [sends, and_assoc] using hs
  · cases h

theorem writeFrame_of {m : ModuleType} {ep : BitVec 7} {s : State} (hm : s.cfg.moduleType = m)
    (hst : s.cc.st = .sending) (hp : s.cc.phase = .wr) (he : s.cc.ep = ep) :
    writeFrame m ep s = .next (stepWrite s) := by
  simp [writeFrame, sends, hm, hst, hp, he]

theorem readFrame_of {m : ModuleType} {ep : BitVec 7} {s : State} (hm : s.cfg.moduleType = m)
    (hst : s.cc.st = .sending) (hp : s.cc.phase = .rd) (he : s.cc.ep = ep) :
    readFrame m ep s = .next (stepRead s) := by
  simp [readFrame, sends, hm, hst, hp, he]

/-- What the meaning of a frame row can do (42_command_channel R136, R137, R140). -/
theorem exec_frame_cases {i : Instr} {s t : State} (hi : (encode i).length = 2) (h : exec i s = .next t) :
    (s.cc.st = .sending ∧ s.cc.phase = .wr ∧ t = stepWrite s) ∨
    (s.cc.st = .sending ∧ s.cc.phase = .rd ∧ t = stepRead s) ∨
    (s.cc.st = .polling ∧ t = stepPoll s) := by
  cases i <;> first
    | (exfalso; revert hi; decide)
    | skip
  case wrDisplayValue | wrBrightness | wrColon | wrApostrophe | wrColor | wrRawPassthrough | wrLine |
      wrCustomCharacter =>
    obtain ⟨_, h1, h2, _, h3⟩ := writeFrame_next h
    exact .inl ⟨h1, h2, h3⟩
  case rdDisplayValue | rdBrightness | rdColon | rdApostrophe | rdColor | rdRawPassthrough | rdLine |
      rdCustomCharacter =>
    obtain ⟨_, h1, h2, _, h3⟩ := readFrame_next h
    exact .inr (.inl ⟨h1, h2, h3⟩)
  change execPoll s = .next t at h
  unfold execPoll at h
  split at h
  · rename_i hs; cases h; exact .inr (.inr ⟨hs, rfl⟩)
  · cases h

/-- The codes of the endpoint table (10_state R24). -/
theorem endpoint?_code {c : Config} {ep : BitVec 7} (h : (endpoint? c ep).isSome = true) :
    ep = 0x01 ∨ ep = 0x02 ∨ ep = 0x03 ∨ ep = 0x04 := by
  unfold endpoint? epTable at h
  cases hm : c.moduleType <;> simp [hm] at h <;> simpa [eq_comm (a := ep)] using h

/-- What the decoder looks at in a frame: its sync byte and its command byte. -/
theorem decode_frameOf (m : ModuleType) (c : Config) (w : Bool) (ep : BitVec 7) (pl : List Byte) :
    decode m (frameOf c w ep pl) = decodeHead m c.sync (cmdByte w ep) := rfl

/-- `Sending`, `WR`: the frame about to be sent is in the map, and its meaning is the WRITE step. -/
theorem runFetched_write {s : State} (hsy : s.cfg.sync = 0x80) (hst : s.cc.st = .sending) (hp : s.cc.phase = .wr)
    (he : (endpoint? s.cfg s.cc.ep).isSome = true) : runFetched s = .next (stepWrite s) := by
  have hf : fetch s = decodeHead s.cfg.moduleType syncByte (cmdByte true s.cc.ep) := by
    simp [fetch, fetchBytes, hst, hp, decode_frameOf, hsy, syncByte]
  unfold runFetched
  rw [hf]
  rcases endpoint?_code he with h | h | h | h <;> cases hm : s.cfg.moduleType <;> rw [h] <;>
    exact writeFrame_of hm hst hp h

/-- `Sending`, `RD`: the frame about to be sent is in the map, and its meaning is the READ step. -/
theorem runFetched_read {s : State} (hsy : s.cfg.sync = 0x80) (hst : s.cc.st = .sending) (hp : s.cc.phase = .rd)
    (he : (endpoint? s.cfg s.cc.ep).isSome = true) : runFetched s = .next (stepRead s) := by
  have hf : fetch s = decodeHead s.cfg.moduleType syncByte (cmdByte false s.cc.ep) := by
    simp [fetch, fetchBytes, hst, hp, decode_frameOf, hsy, syncByte]
  unfold runFetched
  rw [hf]
  rcases endpoint?_code he with h | h | h | h <;> cases hm : s.cfg.moduleType <;> rw [h] <;>
    exact readFrame_of hm hst hp h

/-- `Polling`: the frame about to be sent is the poll frame. -/
theorem runFetched_poll {s : State} (hsy : s.cfg.sync = 0x80) (hst : s.cc.st = .polling) :
    runFetched s = .next (stepPoll s) := by
  have hf : fetch s = decodeHead s.cfg.moduleType syncByte 0x00 := by
    simp only [fetch, fetchBytes, hst, pollFrame, decode_frameOf, hsy]; rfl
  unfold runFetched
  rw [hf]
  cases s.cfg.moduleType <;> exact if_pos hst

/-- What the decoder finds in a frame is a row of two bytes. -/
theorem decodeHead_ok {m : ModuleType} {b0 b1 : Byte} {i : Instr} (h : decodeHead m b0 b1 = .ok i) :
    b0 = syncByte ∧ encode i = [b0, b1] ∧ i.wf m = true := by
  have hall : ∀ b1 : Byte,
      ((frameTable m).lookup b1).all (fun i => encode i == [syncByte, b1] && i.wf m) = true := by
    cases m <;> decide
  unfold decodeHead at h
  split at h
  · rename_i h0; subst h0
    have h1 := hall b1
    cases hl : (frameTable m).lookup b1 with
    | none => rw [hl] at h; cases h
    | some j =>
      rw [hl] at h h1; cases h
      simpa using h1
  · cases h

/-- A frame that the sequencer runs is a row of two bytes. -/
theorem runFetched_frame {s t : State} (hst : s.cc.st = .sending ∨ s.cc.st = .polling) (h : runFetched s = .next t) :
    ∃ i, (encode i).length = 2 ∧ exec i s = .next t := by
  have hf : ∃ b1, fetch s = decodeHead s.cfg.moduleType s.cfg.sync b1 := by
    unfold fetch fetchBytes
    rcases hst with h1 | h1
    · cases hp : s.cc.phase <;> simp only [h1] <;> exact ⟨_, rfl⟩
    · simp only [h1]; exact ⟨_, rfl⟩
  obtain ⟨b1, hf⟩ := hf
  unfold runFetched at h
  cases hi : fetch s with
  | ok i =>
    rw [hi] at h
    exact ⟨i, by rw [(decodeHead_ok (hf.symm.trans hi)).2.1]; rfl, h⟩
  | error r =>
    rw [hi] at h
    simp only at h
    split at h
    · rename_i h0; rcases hst with h1 | h1 <;> rw [h1] at h0 <;> cases h0
    · cases h

theorem decodeOp_ok {op : Byte} {i : Instr} : decodeOp op = .ok i → encode i = [op] := by
  have h : ∀ op : Byte, (opTable.lookup op).all (fun i => encode i == [op]) = true := by decide
  have := h op
  unfold decodeOp
  cases hl : opTable.lookup op <;> intro he <;> cases he
  rw [hl] at this; simpa using this

/-- Not busy, started: the operation in `OP` ends in one of the four ways; a reserved code raises `ERR_OP`. -/
theorem runFetched_free {s : State} (hb : s.busy = false) :
    ∃ t, runFetched s = .next t ∧
      ((∃ i, encode i = [s.req.op] ∧ exec i s = .next t ∧ HostStep i s t) ∨
       ((∀ i, encode i ≠ [s.req.op]) ∧ t = raise .errOp s)) := by
  obtain ⟨hst, hp⟩ := busy_eq_false.1 hb
  have hf : fetch s = decodeOp s.req.op := by simp [fetch, fetchBytes, hst, hp]; rfl
  unfold runFetched
  rw [hf]
  cases h : decodeOp s.req.op with
  | ok i =>
    have hi := decodeOp_ok h
    obtain ⟨t, ht, hs⟩ := exec_host_cases (i := i) (by rw [hi]; rfl) hb
    exact ⟨t, ht, .inl ⟨i, hi, ht, hs⟩⟩
  | error r =>
    refine ⟨_, if_pos hst, .inr ⟨fun i hi => ?_, rfl⟩⟩
    have : ∀ i : Instr, (encode i).length = 1 → decodeOp ((encode i).getD 0 0) = .ok i := by
      intro i; cases i <;> first | (intro; rfl) | (intro h; cases h)
    have h1 := this i (by rw [hi]; rfl)
    rw [hi] at h1
    rw [show ([s.req.op] : List Byte).getD 0 0 = s.req.op from rfl, h] at h1
    cases h1

/-! ### The whole step -/

/-- Everything a step can do. -/
inductive StepCase (s : State) : State → Prop
  | reset (h : (linesNow s).reset = true) : StepCase s (applyReset (sample s))
  | rest (h : (linesNow s).reset = false) (hb : s.busy = false) (hs : s.start = false) :
      StepCase s (stepAtRest (sample s))
  | op (h : (linesNow s).reset = false) (hb : s.busy = false) (hs : s.start = true) (i : Instr) (t : State)
      (hi : encode i = [s.req.op]) (ht : HostStep i (takeStart (sample s)) t) : StepCase s t
  | reserved (h : (linesNow s).reset = false) (hb : s.busy = false) (hs : s.start = true) :
      StepCase s (raise .errOp (takeStart (sample s)))
  | nextSet (h : (linesNow s).reset = false) (hst : s.cc.st = .idle) (r : SetReq) (rest : List SetReq) (allOk : Bool)
      (hd : s.disp = some ⟨r :: rest, allOk⟩) :
      StepCase s (beginDispSet r { takeStart (sample s) with disp := some ⟨rest, allOk⟩ })
  | write (h : (linesNow s).reset = false) (hst : s.cc.st = .sending) (hp : s.cc.phase = .wr) :
      StepCase s (stepWrite (takeStart (sample s)))
  | read (h : (linesNow s).reset = false) (hst : s.cc.st = .sending) (hp : s.cc.phase = .rd) :
      StepCase s (stepRead (takeStart (sample s)))
  | await (h : (linesNow s).reset = false) (hst : s.cc.st = .awaitingSignal) :
      StepCase s (stepAwait (takeStart (sample s)))
  | poll (h : (linesNow s).reset = false) (hst : s.cc.st = .polling) :
      StepCase s (stepPoll (takeStart (sample s)))
  | reject (h : (linesNow s).reset = false) (hst : s.cc.st = .validating) (ha : accept s = false) :
      StepCase s (goto .retryInner (takeStart (sample s)))
  | accept (h : (linesNow s).reset = false) (hst : s.cc.st = .validating) (ha : accept s = true) :
      StepCase s (goto (afterAccept (takeResponse (takeStart (sample s)))) (takeResponse (takeStart (sample s))))
  | retryInner (h : (linesNow s).reset = false) (hst : s.cc.st = .retryInner) :
      StepCase s (stepRetryInner (takeStart (sample s)))
  | retryOuter (h : (linesNow s).reset = false) (hst : s.cc.st = .retryOuter) :
      StepCase s (stepRetryOuter (takeStart (sample s)))
  | success (h : (linesNow s).reset = false) (hst : s.cc.st = .success) :
      StepCase s (stepEnd true (takeStart (sample s)))
  | failed (h : (linesNow s).reset = false) (hst : s.cc.st = .failed) :
      StepCase s (stepEnd false (takeStart (sample s)))

theorem accept_sample (s : State) : Machine.accept (takeStart (sample s)) = Machine.accept s := by
  simp [Machine.accept, expectedCmd, ccHasSub]

theorem responseInside_of_wf {s : State} (h : s.cfg.wf = true) : responseInside s = true := by
  have h3 : 3 ≤ s.cfg.n := by
    simp only [Config.wf, Config.frameLenOk, Bool.and_eq_true, decide_eq_true_eq] at h; exact h.1.1.1.1.2.1
  have hc : s.cfg.cmdOffset.toNat ≤ 2 := by
    simp only [Config.wf, Config.cmdOffsetOk, Bool.and_eq_true, Bool.or_eq_true, beq_iff_eq] at h
    rcases h.1.1.2 with h | h <;> rw [h] <;> decide
  simp [responseInside]; omega

/-- The inversion of `step`: from any state at all, everything it can answer. -/
theorem step_next_cases {s t : State} (h : step s = .next t) : StepCase s t := by
  unfold step at h
  cases hr : (linesNow s).reset with
  | true => rw [hr] at h; cases h; exact .reset hr
  | false =>
    simp only [hr, Bool.false_eq_true, if_false] at h
    unfold blockStep at h
    simp only [sample_cc, sample_start] at h
    cases hst : s.cc.st with
    | idle =>
      simp only [hst] at h
      cases hp : setPending s.disp with
      | true =>
        simp only [sample_disp, hp, if_true] at h; cases h
        obtain ⟨r, rest, allOk, hd⟩ := setPending_eq_true.1 hp
        rw [stepNextSet_of (by simpa using hd)]
        exact .nextSet hr hst r rest allOk hd
      | false =>
        have hb := busy_eq_false.2 ⟨hst, hp⟩
        cases hs : s.start with
        | false =>
          simp only [sample_disp, hp, hs, Bool.false_eq_true, if_false] at h; cases h
          exact .rest hr hb hs
        | true =>
          simp only [sample_disp, hp, hs, Bool.false_eq_true, if_false, if_true] at h
          obtain ⟨t', ht, h'⟩ := runFetched_free (s := takeStart (sample s)) (by simpa using hb)
          rw [ht] at h; cases h
          rcases h' with ⟨i, hi, _, h'⟩ | ⟨_, rfl⟩
          · exact .op hr hb hs i t (by simpa using hi) h'
          · exact .reserved hr hb hs
    | sending | polling =>
      simp only [hst] at h
      obtain ⟨i, hi, he⟩ := runFetched_frame (by simp [hst]) h
      rcases exec_frame_cases hi he with ⟨h1, h2, rfl⟩ | ⟨h1, h2, rfl⟩ | ⟨h1, rfl⟩
      · exact .write hr (by simpa using h1) (by simpa using h2)
      · exact .read hr (by simpa using h1) (by simpa using h2)
      · exact .poll hr (by simpa using h1)
    | validating =>
      simp only [hst] at h
      unfold stepValidate at h
      rw [accept_sample] at h
      split at h
      · cases ha : Machine.accept s with
        | true => rw [ha] at h; cases h; exact .accept hr hst ha
        | false => rw [ha] at h; cases h; exact .reject hr hst ha
      · cases h
    | awaitingSignal => simp only [hst] at h; cases h; exact .await hr hst
    | retryInner => simp only [hst] at h; cases h; exact .retryInner hr hst
    | retryOuter => simp only [hst] at h; cases h; exact .retryOuter hr hst
    | success => simp only [hst] at h; cases h; exact .success hr hst
    | failed => simp only [hst] at h; cases h; exact .failed hr hst

end Sys2Proof.Machine
end

