-- ==== Sys2Proof/Tests/Slice0.lean ====
section
/-! SUPPORT. Tests: the well-formedness smoke tests, one decoding test per constructor from words written out bit by bit,
single steps on small states with the results of 95_test_vectors, and a witness for the hypotheses of every obligation. -/

namespace Sys2Proof.Machine.Tests

-- one theorem after another, so that a small machine has the threads for it
set_option Elab.async false

open Sys2Proof

/-! ### Well-formedness: a legal configuration of each module type, and an ill-formed one for each check -/

/-- A character module with 18-byte frames. -/
def charConfig : Config := configOf .character 18 15 15 15 15

theorem test_default_config_wf : defaultConfig.wf = true ∧ charConfig.wf = true := by decide

theorem test_frame_of_two_bytes_refused :
    (configOf .character 2 1 1 1 1).frameLenOk = false ∧ (configOf .character 2 1 1 1 1).wf = false := by decide

theorem test_short_seven_segment_frame_refused :
    (configOf .sevenSegment 6 1 1 1 1).wf = false ∧ (configOf .sevenSegment 7 0 0 0 0).wf = true := by decide

theorem test_wrong_sync_refused : { defaultConfig with sync := 0x81 }.wf = false := by decide

theorem test_wrong_polynomial_refused : { defaultConfig with crcPoly := 0x31 }.wf = false := by decide

theorem test_wrong_write_budget_refused : { defaultConfig with wBudget := 35 }.wf = false := by decide

theorem test_wrong_read_budget_refused : { defaultConfig with rBudget := 3 }.wf = false := by decide

theorem test_wrong_timeout_refused : { defaultConfig with waitTimeout := 2 }.wf = false := by decide

theorem test_cmd_offset_three_refused :
    { defaultConfig with cmdOffset := 3 }.wf = false ∧ { defaultConfig with cmdOffset := 2 }.wf = true := by decide

theorem test_width_beyond_capacity_refused :
    { charConfig with wLine := 16 }.wf = false ∧ { charConfig with wLine := 0 }.wf = false := by decide

theorem test_repeated_digit_refused :
    { defaultSeg with digits := 0x06 :: defaultSeg.digits.tail }.wf = false := by decide

theorem test_missing_digit_refused : { defaultSeg with digits := defaultSeg.digits.tail }.wf = false := by decide

theorem test_digit_with_point_refused :
    { defaultSeg with digits := 0xBF :: defaultSeg.digits.tail }.wf = false := by decide

theorem test_lit_blank_refused : { defaultSeg with blank := 0x01 }.wf = false := by decide

theorem test_dash_with_point_refused :
    { defaultSeg with dash := 0xC0 }.wf = false ∧ { defaultSeg with underscore := 0x88 }.wf = false := by decide

theorem test_other_modules_frame_refused :
    Instr.wf .character .wrColon = false ∧ Instr.wf .sevenSegment .wrLine = false ∧
    Instr.wf .character .wrLine = true ∧ Instr.wf .sevenSegment .wrColon = true := by decide

/-! ### Decoding: the word of each row, written out from 30_encoding R80 and R76 -/

theorem test_decode_host_operations :
    decodeTableWord 8 0b00010000 = some .fcCrc8 ∧ decodeTableWord 8 0b00010001 = some .fcEncode ∧
    decodeTableWord 8 0b00010010 = some .fcDecode ∧ decodeTableWord 8 0b00010011 = some .fcPoll ∧
    decodeTableWord 8 0b00010100 = some .fcCheck ∧ decodeTableWord 8 0b00100000 = some .ccSet ∧
    decodeTableWord 8 0b00100001 = some .ccGet := by decide

theorem test_decode_value_encodings :
    decodeTableWord 8 0b00110000 = some .veDig ∧ decodeTableWord 8 0b00110001 = some .veChr ∧
    decodeTableWord 8 0b00110010 = some .veI2d ∧ decodeTableWord 8 0b00110011 = some .veClz ∧
    decodeTableWord 8 0b00110100 = some .veInt ∧ decodeTableWord 8 0b00110101 = some .veFix ∧
    decodeTableWord 8 0b00110110 = some .veStr ∧ decodeTableWord 8 0b00110111 = some .veClk ∧
    decodeTableWord 8 0b00111000 = some .veDur ∧ decodeTableWord 8 0b00111001 = some .veTmp := by decide

theorem test_decode_display_operations :
    decodeTableWord 8 0b01000000 = some .dispInt ∧ decodeTableWord 8 0b01000001 = some .dispFix ∧
    decodeTableWord 8 0b01000010 = some .dispStr ∧ decodeTableWord 8 0b01000011 = some .dispClk ∧
    decodeTableWord 8 0b01000100 = some .dispDur ∧ decodeTableWord 8 0b01000101 = some .dispTmp := by decide

theorem test_decode_seven_segment_frames :
    decodeTableWord 16 0b1000000000000000 = some .poll ∧
    decodeTableWord 16 0b1000000000000001 = some .rdDisplayValue ∧
    decodeTableWord 16 0b1000000000000010 = some .rdBrightness ∧
    decodeTableWord 16 0b1000000000000011 = some .rdColon ∧
    decodeTableWord 16 0b1000000000000100 = some .rdApostrophe ∧
    decodeTableWord 16 0b1000000010000001 = some .wrDisplayValue ∧
    decodeTableWord 16 0b1000000010000010 = some .wrBrightness ∧
    decodeTableWord 16 0b1000000010000011 = some .wrColon ∧
    decodeTableWord 16 0b1000000010000100 = some .wrApostrophe := by decide

theorem test_decode_character_frames :
    decode .character [0b10000000, 0b00000000] = .ok .poll ∧
    decode .character [0b10000000, 0b00000001] = .ok .rdColor ∧
    decode .character [0b10000000, 0b00000010] = .ok .rdRawPassthrough ∧
    decode .character [0b10000000, 0b00000011] = .ok .rdLine ∧
    decode .character [0b10000000, 0b00000100] = .ok .rdCustomCharacter ∧
    decode .character [0b10000000, 0b10000001] = .ok .wrColor ∧
    decode .character [0b10000000, 0b10000010] = .ok .wrRawPassthrough ∧
    decode .character [0b10000000, 0b10000011] = .ok .wrLine ∧
    decode .character [0b10000000, 0b10000100] = .ok .wrCustomCharacter := by
  refine ⟨?_, ?_, ?_, ?_, ?_, ?_, ?_, ?_, ?_⟩ <;> rfl

theorem test_reserved_words_refused :
    decodeTableWord 8 0x00 = none ∧ decodeTableWord 8 0x46 = none ∧ decodeTableWord 16 0x8005 = none ∧
    decodeTableWord 16 0x8080 = none ∧ decodeTableWord 16 0x8101 = none ∧ decodeTableWord 16 0x0001 = none ∧
    decodeTableWord 12 0x800 = none := by decide

/-- `CRCTAB` as 40_frame_codec R100 lists it, sixteen entries a row. -/
theorem test_crc_table_low :
    (List.range 128).map (fun i => crcTab 0x07 (BitVec.ofNat 8 i)) =
    [0x00, 0x07, 0x0E, 0x09, 0x1C, 0x1B, 0x12, 0x15, 0x38, 0x3F, 0x36, 0x31, 0x24, 0x23, 0x2A, 0x2D] ++
    [0x70, 0x77, 0x7E, 0x79, 0x6C, 0x6B, 0x62, 0x65, 0x48, 0x4F, 0x46, 0x41, 0x54, 0x53, 0x5A, 0x5D] ++
    [0xE0, 0xE7, 0xEE, 0xE9, 0xFC, 0xFB, 0xF2, 0xF5, 0xD8, 0xDF, 0xD6, 0xD1, 0xC4, 0xC3, 0xCA, 0xCD] ++
    [0x90, 0x97, 0x9E, 0x99, 0x8C, 0x8B, 0x82, 0x85, 0xA8, 0xAF, 0xA6, 0xA1, 0xB4, 0xB3, 0xBA, 0xBD] ++
    [0xC7, 0xC0, 0xC9, 0xCE, 0xDB, 0xDC, 0xD5, 0xD2, 0xFF, 0xF8, 0xF1, 0xF6, 0xE3, 0xE4, 0xED, 0xEA] ++
    [0xB7, 0xB0, 0xB9, 0xBE, 0xAB, 0xAC, 0xA5, 0xA2, 0x8F, 0x88, 0x81, 0x86, 0x93, 0x94, 0x9D, 0x9A] ++
    [0x27, 0x20, 0x29, 0x2E, 0x3B, 0x3C, 0x35, 0x32, 0x1F, 0x18, 0x11, 0x16, 0x03, 0x04, 0x0D, 0x0A] ++
    [0x57, 0x50, 0x59, 0x5E, 0x4B, 0x4C, 0x45, 0x42, 0x6F, 0x68, 0x61, 0x66, 0x73, 0x74, 0x7D, 0x7A] := by
  decide +kernel

/-- The other half of `CRCTAB`. -/
theorem test_crc_table_high :
    (List.range 128).map (fun i => crcTab 0x07 (BitVec.ofNat 8 (128 + i))) =
    [0x89, 0x8E, 0x87, 0x80, 0x95, 0x92, 0x9B, 0x9C, 0xB1, 0xB6, 0xBF, 0xB8, 0xAD, 0xAA, 0xA3, 0xA4] ++
    [0xF9, 0xFE, 0xF7, 0xF0, 0xE5, 0xE2, 0xEB, 0xEC, 0xC1, 0xC6, 0xCF, 0xC8, 0xDD, 0xDA, 0xD3, 0xD4] ++
    [0x69, 0x6E, 0x67, 0x60, 0x75, 0x72, 0x7B, 0x7C, 0x51, 0x56, 0x5F, 0x58, 0x4D, 0x4A, 0x43, 0x44] ++
    [0x19, 0x1E, 0x17, 0x10, 0x05, 0x02, 0x0B, 0x0C, 0x21, 0x26, 0x2F, 0x28, 0x3D, 0x3A, 0x33, 0x34] ++
    [0x4E, 0x49, 0x40, 0x47, 0x52, 0x55, 0x5C, 0x5B, 0x76, 0x71, 0x78, 0x7F, 0x6A, 0x6D, 0x64, 0x63] ++
    [0x3E, 0x39, 0x30, 0x37, 0x22, 0x25, 0x2C, 0x2B, 0x06, 0x01, 0x08, 0x0F, 0x1A, 0x1D, 0x14, 0x13] ++
    [0xAE, 0xA9, 0xA0, 0xA7, 0xB2, 0xB5, 0xBC, 0xBB, 0x96, 0x91, 0x98, 0x9F, 0x8A, 0x8D, 0x84, 0x83] ++
    [0xDE, 0xD9, 0xD0, 0xD7, 0xC2, 0xC5, 0xCC, 0xCB, 0xE6, 0xE1, 0xE8, 0xEF, 0xFA, 0xFD, 0xF4, 0xF3] := by
  decide +kernel

/-! ### Small states and what is asked of them -/

/-- The idle block after reset, with the registers of a request and start pulsed. -/
def ask (r : Request) (c : Config := defaultConfig) : State := placeRequest r (State.resetOf c)

/-- The block in the middle of a transaction that writes `06 5B 4F 66`, no reset to come. -/
def mid (st : SeqState) (kind : Kind) (phase : Phase) (ep : BitVec 7 := 0x01) (c : Config := defaultConfig)
    (wcnt : BitVec 6 := 36) (rcnt : BitVec 3 := 4) : State :=
  { State.resetOf c with
    cc :=
      { (State.resetOf c).cc with
        st := st, kind := kind, phase := phase, ep := ep, sub := 0x01, wcnt := wcnt, rcnt := rcnt,
        want := fit c.pcap [0x06, 0x5B, 0x4F, 0x66], wlen := 4, mid := 0x2A }
    lines := List.replicate 6 {} }

/-- The next state meets `p`. -/
def next (o : Host.Outcome State Fault Refusal) (p : State → Bool) : Bool :=
  match o with
  | .next t => p t
  | .fault _ => false
  | .refused _ => false

/-- The status, and the bytes of `DOUT` with their number. -/
def gives (st : Status) (bs : List Byte) (t : State) : Bool :=
  t.res.st == st && t.res.dolen.toNat == bs.length && t.res.dout.bytes bs.length == bs

/-- `k` zero bytes after a head. -/
def head (k : Nat) (bs : List Byte) : List Byte := bs ++ List.replicate k 0x00

/-- A frame of 18 bytes: head, zeros, trailer. -/
def frame18 (bs : List Byte) (crc : Byte) : List Byte := head (17 - bs.length) bs ++ [crc]

/-! ### One step of each host operation (95_test_vectors sections 1 and 2, programs P1 to P8) -/

theorem test_crc8 :
    next (exec .fcCrc8 (ask { op := 0x10, din := [0x31, 0x32, 0x33, 0x34, 0x35, 0x36, 0x37, 0x38, 0x39] }))
      (fun t => t.res.rv == 0xF4 && t.res.st == .ok) = true := by decide +kernel

theorem test_crc8_residue :
    next (exec .fcCrc8 (ask { op := 0x10, din := [0x80, 0x81, 0x38] })) (fun t => t.res.rv == 0x00) = true := by
  decide +kernel

theorem test_encode :
    next (exec .fcEncode (ask { op := 0x11, x0 := 1, ep := 0x01, din := [0x06, 0x5B, 0x4F, 0x66] }))
      (gives .ok (frame18 [0x80, 0x81, 0x06, 0x5B, 0x4F, 0x66] 0xF8)) = true := by decide +kernel

theorem test_encode_above_capacity :
    next (exec .fcEncode (ask { op := 0x11, x0 := 1, ep := 0x04, din := List.replicate 16 0xAA }))
      (fun t => t.res.st == .errCap) = true := by decide +kernel

theorem test_decode :
    next (exec .fcDecode (ask { op := 0x12, din := frame18 [0x80, 0x81, 0x06, 0x5B, 0x4F, 0x66] 0xF8 }))
      (fun t => t.res.rv == 0x81 && gives .ok (head 11 [0x06, 0x5B, 0x4F, 0x66]) t) = true := by decide +kernel

theorem test_decode_short :
    next (exec .fcDecode (ask { op := 0x12, din := List.replicate 17 0 })) (fun t => t.res.st == .errLen) = true := by
  decide +kernel

theorem test_poll_frame :
    next (exec .fcPoll (ask { op := 0x13 })) (gives .ok (frame18 [0x80, 0x00] 0x15)) = true := by decide +kernel

theorem test_check :
    next (exec .fcCheck (ask { op := 0x14, din := frame18 [0x80, 0x81, 0x06, 0x5B, 0x4F, 0x66] 0xF8 }))
      (fun t => t.res.rv == 1) = true := by decide +kernel

theorem test_check_wrong_trailer :
    next (exec .fcCheck (ask { op := 0x14, din := frame18 [0x80, 0x81, 0x06, 0x5B, 0x4F, 0x66] 0xF9 }))
      (fun t => t.res.rv == 0 && t.res.st == .ok) = true := by decide +kernel

theorem test_set_starts :
    next (exec .ccSet (ask { op := 0x20, ep := 0x01, din := [0x06, 0x5B] }))
      (fun t => t.cc.st == .sending && t.cc.kind == .set && t.cc.wlen == 2 && t.cc.wcnt == 36) = true := by
  decide +kernel

theorem test_get_line_starts :
    next (exec .ccGet (ask { op := 0x21, ep := 0x03, subEn := true, sub := 0x01 } charConfig))
      (fun t => t.cc.st == .sending && t.cc.phase == .rd && t.cc.sub == 0x01 && t.cc.rcnt == 4) = true := by
  decide +kernel

theorem test_get_of_endpoint_zero :
    next (exec .ccGet (ask { op := 0x21 })) (fun t => t.res.st == .errArg && t.cc.st == .idle) = true := by
  decide +kernel

theorem test_digit :
    next (exec .veDig (ask { op := 0x30, x0 := 5 })) (fun t => t.res.rv == 0x6D) = true := by decide +kernel

theorem test_digit_ten :
    next (exec .veDig (ask { op := 0x30, x0 := 10 })) (fun t => t.res.st == .errArg) = true := by decide +kernel

theorem test_character :
    next (exec .veChr (ask { op := 0x31, x0 := 0x62 })) (fun t => t.res.rv == 0x7C) = true := by decide +kernel

theorem test_character_256 :
    next (exec .veChr (ask { op := 0x31, x0 := 256 })) (fun t => t.res.st == .errArg) = true := by decide +kernel

theorem test_integer_digits :
    next (exec .veI2d (ask { op := 0x32, x0 := 12345 })) (gives .ok [0x5B, 0x4F, 0x66, 0x6D]) = true := by
  decide +kernel

theorem test_clear_zeros :
    next (exec .veClz (ask { op := 0x33, din := [0x3F, 0xBF, 0x3F, 0x6D] }))
      (gives .ok [0x00, 0xBF, 0x3F, 0x6D]) = true := by decide +kernel

theorem test_integer :
    next (exec .veInt (ask { op := 0x34, x0 := 0xFFFB })) (gives .ok [0x40, 0x00, 0x00, 0x6D]) = true := by
  decide +kernel

theorem test_integer_below_range :
    next (exec .veInt (ask { op := 0x34, x0 := BitVec.ofInt 16 (-1000) })) (fun t => t.res.st == .errArg) = true := by
  decide +kernel

theorem test_fixed_point :
    next (exec .veFix (ask { op := 0x35, x0 := 314, x2 := 2 })) (gives .ok [0x00, 0xCF, 0x06, 0x66]) = true := by
  decide +kernel

theorem test_fixed_point_dash_keeps_point :
    next (exec .veFix (ask { op := 0x35, x0 := 0xFEC6, x2 := 3 })) (gives .ok [0xC0, 0x4F, 0x06, 0x66]) = true := by
  decide +kernel

theorem test_string :
    next (exec .veStr (ask { op := 0x36, din := [0x31, 0x2E, 0x2E, 0x35] }))
      (gives .ok [0x86, 0x80, 0x6D, 0x00]) = true := by decide +kernel

theorem test_string_stops_at_four :
    next (exec .veStr (ask { op := 0x36, din := [0x31, 0x32, 0x33, 0x34, 0x2E] }))
      (gives .ok [0x06, 0x5B, 0x4F, 0x66]) = true := by decide +kernel

theorem test_clock :
    next (exec .veClk (ask { op := 0x37, x0 := 13, x1 := 5, x2 := 1, x3 := 1 }))
      (fun t => t.res.rv == 1 && gives .ok [0x00, 0x06, 0x3F, 0xED] t) = true := by decide +kernel

theorem test_clock_24_hours :
    next (exec .veClk (ask { op := 0x37, x0 := 0, x1 := 5, x2 := 0, x3 := 1 }))
      (fun t => t.res.rv == 0 && gives .ok [0x3F, 0x3F, 0x3F, 0x6D] t) = true := by decide +kernel

theorem test_duration_automatic :
    next (exec .veDur (ask { op := 0x38, x1 := BitVec.ofInt 16 (-12), x3 := 2 }))
      (fun t => t.res.rv == 0 && gives .ok [0x40, 0x3F, 0x06, 0x5B] t) = true := by decide +kernel

theorem test_duration_minutes :
    next (exec .veDur (ask { op := 0x38, x1 := BitVec.ofInt 16 (-9), x2 := BitVec.ofInt 16 (-59), x3 := 2 }))
      (fun t => t.res.rv == 1 && gives .ok [0x40, 0x6F, 0x6D, 0x6F] t) = true := by decide +kernel

theorem test_temperature :
    next (exec .veTmp (ask { op := 0x39, x0 := 235, x1 := 1 }))
      (fun t => t.res.rv == 1 && gives .ok [0x5B, 0xCF, 0x6D, 0x00] t) = true := by decide +kernel

theorem test_temperature_truncates_toward_zero :
    next (exec .veTmp (ask { op := 0x39, x0 := BitVec.ofInt 16 (-19) }))
      (fun t => t.res.rv == 0 && gives .ok [0x40, 0x00, 0x06, 0x00] t) = true := by decide +kernel

/-- A display operation has started the set of its digits. -/
def starts (bs : List Byte) (t : State) : Bool :=
  t.res.dout.bytes 4 == bs && t.res.dolen == 4 && t.cc.st == .sending && t.cc.ep == 0x01 && t.cc.want.take 4 == bs

theorem test_display_integer :
    next (exec .dispInt (ask { op := 0x40, x0 := 0xFFFB })) (starts [0x40, 0x00, 0x00, 0x6D]) = true := by
  decide +kernel

theorem test_display_on_character_module :
    next (exec .dispInt (ask { op := 0x40, x0 := 7 } charConfig)) (fun t => t.res.st == .errArg) = true := by
  decide +kernel

theorem test_display_fixed_point :
    next (exec .dispFix (ask { op := 0x41, x0 := 314, x2 := 2 })) (starts [0x00, 0xCF, 0x06, 0x66]) = true := by
  decide +kernel

theorem test_display_string :
    next (exec .dispStr (ask { op := 0x42, din := [0x31, 0x2E, 0x35] })) (starts [0x86, 0x6D, 0x00, 0x00]) = true := by
  decide +kernel

theorem test_display_clock :
    next (exec .dispClk (ask { op := 0x43, x0 := 13, x1 := 5, x2 := 1, x3 := 1 }))
      (fun t => t.res.rv == 1 && starts [0x00, 0x06, 0x3F, 0xED] t) = true := by decide +kernel

theorem test_display_duration :
    next (exec .dispDur (ask { op := 0x44, x1 := BitVec.ofInt 16 (-12), x3 := 2 }))
      (fun t => t.res.rv == 0 && starts [0x40, 0x3F, 0x06, 0x5B] t) = true := by decide +kernel

theorem test_display_temperature :
    next (exec .dispTmp (ask { op := 0x45, x0 := 235, x1 := 1 }))
      (fun t => t.res.rv == 1 && starts [0x5B, 0xCF, 0x6D, 0x00] t &&
        t.disp == some ⟨[⟨0x04, [0x01]⟩, ⟨0x03, [0x00]⟩], true⟩) = true := by decide +kernel

/-! ### One step of each frame: what is transmitted (95_test_vectors 2.2 and section 3) -/

/-- The frame transmitted, and the sequencer's next state. -/
def sent (f : List Byte) (st : SeqState) (t : State) : Bool := t.txbuf.bytes 18 == f && t.cc.st == st

/-- The state that writes `bs` to an endpoint. -/
def writing (ep : BitVec 7) (bs : List Byte) (c : Config := defaultConfig) : State :=
  let s := mid .sending .set .wr ep c
  { s with cc := { s.cc with want := fit c.pcap bs, wlen := BitVec.ofNat 8 bs.length } }

theorem test_write_display_value :
    next (exec .wrDisplayValue (writing 0x01 [0x06, 0x5B, 0x4F, 0x66]))
      (sent (frame18 [0x80, 0x81, 0x06, 0x5B, 0x4F, 0x66] 0xF8) .sending) = true := by decide +kernel

theorem test_write_brightness :
    next (exec .wrBrightness (writing 0x02 [0x80])) (sent (frame18 [0x80, 0x82, 0x80] 0x17) .sending) = true := by
  decide +kernel

theorem test_write_colon :
    next (exec .wrColon (writing 0x03 [0x00])) (sent (frame18 [0x80, 0x83] 0x14) .sending) = true := by decide +kernel

theorem test_write_apostrophe :
    next (exec .wrApostrophe (writing 0x04 [0x01])) (sent (frame18 [0x80, 0x84, 0x01] 0xAF) .sending) = true := by
  decide +kernel

theorem test_write_color :
    next (exec .wrColor (writing 0x01 [0x40, 0x00, 0x00, 0x6D] charConfig))
      (sent (frame18 [0x80, 0x81, 0x40, 0x00, 0x00, 0x6D] 0xEF) .sending) = true := by decide +kernel

theorem test_write_raw :
    next (exec .wrRawPassthrough (writing 0x02 [0x80] charConfig))
      (sent (frame18 [0x80, 0x82, 0x80] 0x17) .sending) = true := by decide +kernel

theorem test_write_line :
    next (exec .wrLine (writing 0x03 [0x01, 0x48, 0x69] charConfig))
      (sent (frame18 [0x80, 0x83, 0x01, 0x48, 0x69] 0x5E) .sending) = true := by decide +kernel

theorem test_write_custom_character :
    next (exec .wrCustomCharacter (writing 0x04 (List.replicate 15 0xAA) charConfig))
      (sent ([0x80, 0x84] ++ List.replicate 15 0xAA ++ [0xE5]) .sending) = true := by decide +kernel

theorem test_read_display_value :
    next (exec .rdDisplayValue (mid .sending .set .rd 0x01)) (sent (frame18 [0x80, 0x01] 0x17) .awaitingSignal) = true := by
  decide +kernel

theorem test_read_brightness :
    next (exec .rdBrightness (mid .sending .get .rd 0x02))
      (fun t => t.txbuf.bytes 3 == [0x80, 0x02, 0x00] && t.cc.st == .awaitingSignal) = true := by decide +kernel

theorem test_read_colon :
    next (exec .rdColon (mid .sending .set .rd 0x03)) (sent (frame18 [0x80, 0x03] 0x13) .awaitingSignal) = true := by
  decide +kernel

theorem test_read_apostrophe :
    next (exec .rdApostrophe (mid .sending .set .rd 0x04)) (sent (frame18 [0x80, 0x04] 0x1D) .awaitingSignal) = true := by
  decide +kernel

theorem test_read_color :
    next (exec .rdColor (mid .sending .get .rd 0x01 charConfig))
      (sent (frame18 [0x80, 0x01] 0x17) .awaitingSignal) = true := by decide +kernel

theorem test_read_raw :
    next (exec .rdRawPassthrough (mid .sending .get .rd 0x02 charConfig))
      (fun t => t.txbuf.bytes 3 == [0x80, 0x02, 0x00] && t.cc.st == .awaitingSignal) = true := by decide +kernel

theorem test_read_line :
    next (exec .rdLine (mid .sending .get .rd 0x03 charConfig))
      (sent (frame18 [0x80, 0x03, 0x01] 0xA6) .awaitingSignal) = true := by decide +kernel

theorem test_read_custom_character :
    next (exec .rdCustomCharacter (mid .sending .get .rd 0x04 charConfig))
      (fun t => t.txbuf.bytes 4 == [0x80, 0x04, 0x01, 0x00] && t.cc.st == .awaitingSignal) = true := by decide +kernel

theorem test_poll :
    next (exec .poll (mid .polling .get .rd)) (sent (frame18 [0x80, 0x00] 0x15) .validating) = true := by decide +kernel

/-! ### Single steps of the machine -/

/-- The response of an ideal module that holds `06 5B 4F 66` (program P2). -/
def response : List Byte := frame18 [0x80, 0x01, 0x06, 0x5B, 0x4F, 0x66] 0xFF

/-- The block about to validate a response. -/
def validating (kind : Kind) (rx : List Byte) : State :=
  { mid .validating kind .rd with rxbuf := Memory.ofBytes rx }

theorem test_ready_edge_reaches_the_wait :
    next (step { mid .awaitingSignal .get .rd with lines := [{ ready := true }] })
      (fun t => t.cc.st == .polling && t.rdy == false && t.cc.seq == [.wait true]) = true := by decide +kernel

theorem test_wait_without_signal :
    next (step (mid .awaitingSignal .get .rd)) (fun t => t.cc.st == .retryInner && t.cc.seq == [.wait false]) = true := by
  decide +kernel

theorem test_equal_read_back : next (step (validating .set response)) (fun t => t.cc.st == .success) = true := by
  decide +kernel

theorem test_wrong_read_back :
    next (step (validating .set (frame18 [0x80, 0x01, 0xF9, 0x5B, 0x4F, 0x66] 0x6F)))
      (fun t => t.cc.st == .retryOuter) = true := by decide +kernel

theorem test_bad_trailer :
    next (step (validating .get (frame18 [0x80, 0x01, 0x06, 0x5B, 0x4F, 0x66] 0xFE)))
      (fun t => t.cc.st == .retryInner) = true := by decide +kernel

theorem test_last_read_attempt_fails :
    next (step (mid .retryInner .get .rd 0x01 defaultConfig 36 1)) (fun t => t.cc.st == .failed && t.cc.rcnt == 0) =
      true := by decide +kernel

theorem test_last_write_attempt_fails :
    next (step (mid .retryOuter .set .rd 0x01 defaultConfig 1 0)) (fun t => t.cc.st == .failed && t.cc.wcnt == 0) =
      true := by decide +kernel

theorem test_reset_in_mid_transaction :
    next (step { mid .polling .set .rd with lines := [{ ready := true, reset := true }], rdy := true, msgid := 7 })
      (fun t => t.cc.st == .idle && t.rdy == false && t.msgid == 0 && t.cc.wcnt == 0) = true := by decide +kernel

theorem test_reserved_code :
    next (step { ask { op := 0x46 } with lines := [{}] }) (fun t => t.res.st == .errOp && t.cc.st == .idle) = true := by
  decide +kernel

theorem test_raw_counts_message_id :
    next (exec .ccSet { ask { op := 0x20, ep := 0x02, din := [0x48] } charConfig with msgid := 0xFF })
      (fun t => t.msgid == 0x00 && t.cc.mid == 0xFF) = true := by decide +kernel

/-- The first instruction after reset, as the host places it. -/
theorem test_fetch_word_host :
    next (step (State.reset.withFetchWord 8 0x13)) (gives .ok (frame18 [0x80, 0x00] 0x15)) = true := by decide +kernel

theorem test_fetch_word_frame :
    next (step (State.reset.withFetchWord 16 0x8083)) (fun t => t.txbuf.bytes 2 == [0x80, 0x83]) = true := by
  decide +kernel

/-! ### Witnesses: concrete states and operands that meet the hypotheses of each obligation, clause by clause -/

/-- Frames of the least length, three bytes, on a character module. -/
def leastConfig : Config := configOf .character 3 0 0 0 0

theorem witness_DecodeAndEncodeAgree :
    Instr.wf .character .wrCustomCharacter = true ∧ (encode .wrCustomCharacter).length = 2 ∧
    (encode .dispTmp).length = 1 ∧ Instr.wf .sevenSegment .dispTmp = true ∧
    decodeTableWord 16 0x8084 = some .wrApostrophe := by decide

theorem witness_FrameRoundTrip :
    3 ≤ leastConfig.frameLen.toNat ∧ ([] : List Byte).length ≤ leastConfig.frameLen.toNat - 3 ∧
    3 ≤ defaultConfig.frameLen.toNat ∧ (List.replicate 15 (0xAA : Byte)).length ≤ defaultConfig.frameLen.toNat - 3 := by
  decide

theorem witness_ChecksumResidueIsZero :
    defaultConfig.crcPoly = 0x07 ∧ defaultConfig.crcXorOut = 0 ∧ response.length = defaultConfig.frameLen.toNat ∧ 1 ≤ defaultConfig.frameLen.toNat := by
  decide

theorem witness_OneAlteredByteIsDetected :
    defaultConfig.crcPoly = 0x07 ∧ response.length = defaultConfig.frameLen.toNat ∧ trailerOk defaultConfig response = true ∧
    0 < response.length ∧ (0x81 : Byte) ≠ response.getD 0 0 ∧ 17 < response.length ∧ (0xFE : Byte) ≠ response.getD 17 0 := by
  decide +kernel

/-- A set about to send its WRITE frame, its READ request and its poll frame, on both module types. -/
theorem inv_sending_wr : Inv (mid .sending .set .wr) := by
  constructor <;> decide +kernel

theorem inv_sending_rd : Inv (mid .sending .get .rd) := by
  constructor <;> decide +kernel

theorem inv_polling : Inv (mid .polling .get .rd) := by
  constructor <;> decide +kernel

theorem inv_line_wr : Inv (mid .sending .set .wr 0x03 charConfig) := by
  constructor <;> decide +kernel

theorem inv_line_rd : Inv (mid .sending .set .rd 0x03 charConfig 1 1) := by
  constructor <;> decide +kernel

theorem witness_OnlyListedFramesAreSent :
    Inv (mid .sending .set .wr) ∧ (mid .sending .set .wr).cc.st = .sending ∧
    Inv (mid .polling .get .rd) ∧ (mid .polling .get .rd).cc.st = .polling :=
  ⟨inv_sending_wr, rfl, inv_polling, rfl⟩

theorem witness_EndpointTableAsListed :
    defaultConfig.moduleType = .sevenSegment ∧ charConfig.moduleType = .character ∧
    (0x00 : BitVec 7).toNat = 0 ∧ 5 ≤ (0x05 : BitVec 7).toNat ∧ 5 ≤ (0x7F : BitVec 7).toNat ∧
    charConfig.wf = true ∧ endpoint? charConfig 0x04 = some ⟨0x04, 15, true, false⟩ := by decide

theorem witness_CrcOperationReturnsChecksum : (ask { op := 0x10 }).busy = false ∧ defaultConfig.wf = true := by decide

theorem witness_EncodeOperationBuildsFrame :
    let full := ask { op := 0x11, din := List.replicate 15 0xAA }
    let above := ask { op := 0x11, din := List.replicate 16 0xAA }
    full.busy = false ∧ full.cfg.sync = 0x80 ∧ above.cfg.sync = 0x80 ∧ 3 ≤ above.cfg.frameLen.toNat ∧ 3 ≤ full.cfg.frameLen.toNat ∧
    (full.req.din.bytes full.req.dlen.toNat).length ≤ full.cfg.frameLen.toNat - 3 ∧
    above.busy = false ∧ above.cfg.frameLen.toNat - 3 < (above.req.din.bytes above.req.dlen.toNat).length := by
  decide +kernel

theorem witness_DecodeOperationSplitsFrame :
    let whole := ask { op := 0x12, din := response }
    let short := ask { op := 0x12, din := List.replicate 17 0 }
    whole.busy = false ∧ 3 ≤ whole.cfg.frameLen.toNat ∧ whole.req.dlen = whole.cfg.frameLen ∧
    short.busy = false ∧ short.req.dlen ≠ short.cfg.frameLen := by decide +kernel

theorem witness_PollOperationBuildsPollFrame :
    (ask { op := 0x13 } leastConfig).busy = false ∧ (ask { op := 0x13 } leastConfig).cfg.sync = 0x80 ∧ 3 ≤ (ask { op := 0x13 } leastConfig).cfg.frameLen.toNat := by
  decide

theorem witness_CheckOperationTestsTrailer :
    let whole := ask { op := 0x14, din := response }
    let long := ask { op := 0x14, din := List.replicate 19 0 }
    whole.busy = false ∧ 1 ≤ whole.cfg.frameLen.toNat ∧ whole.req.dlen = whole.cfg.frameLen ∧
    long.busy = false ∧ long.req.dlen ≠ long.cfg.frameLen := by decide +kernel

/-- The signed first operand of a request. -/
def x0Of (x : Int) (op : Byte) : State := ask { op := op, x0 := BitVec.ofInt 16 x }

theorem witness_DigitOperationLooksUpDigit :
    (x0Of 9 0x30).busy = false ∧ (x0Of 9 0x30).req.x0.toInt = (9 : Nat) ∧ (x0Of 0 0x30).req.x0.toInt = (0 : Nat) ∧
    (x0Of (-1) 0x30).req.x0.toInt < 0 ∧ 9 < (x0Of 10 0x30).req.x0.toInt := by decide

theorem witness_CharacterOperationLooksUpTable :
    (x0Of 0x39 0x31).busy = false ∧ (x0Of 0x30 0x31).req.x0.toInt = 0x30 + (0 : Nat) ∧
    (x0Of 0x39 0x31).req.x0.toInt = 0x30 + (9 : Nat) ∧ (x0Of 0x46 0x31).req.x0.toInt = 0x41 + (5 : Nat) ∧
    (x0Of 0x66 0x31).req.x0.toInt = 0x61 + (5 : Nat) ∧ (x0Of 0x2D 0x31).req.x0.toInt = 0x2D ∧
    (x0Of 0x5F 0x31).req.x0.toInt = 0x5F ∧ (x0Of 0x2E 0x31).req.x0.toInt = 0x2E ∧
    (x0Of 0x47 0x31).req.x0.toInt = 0x47 ∧ (x0Of 255 0x31).req.x0.toInt = 255 ∧
    255 < (x0Of 256 0x31).req.x0.toInt ∧ (x0Of (-1) 0x31).req.x0.toInt < 0 := by decide

theorem witness_IntegerDecomposesIntoDigits :
    (x0Of 32767 0x32).busy = false ∧ (x0Of 32767 0x32).req.x0.toInt = (32767 : Nat) ∧
    (x0Of (-32768) 0x32).req.x0.toInt < 0 := by decide

/-- Four digits for `VE.CLZ`. -/
def four (a b c d : Byte) : State := ask { op := 0x33, din := [a, b, c, d] }

theorem witness_LeadingZerosAreBlanked :
    let zero : Byte := defaultConfig.seg.digits.getD 0 0
    let at_ := fun (s : State) k => s.req.din.read k
    (four zero zero zero zero).busy = false ∧ (four zero zero zero zero).req.dlen = 4 ∧
    at_ (four zero zero zero zero) 0 = zero ∧ at_ (four zero zero zero zero) 2 = zero ∧
    at_ (four zero zero 0x06 zero) 1 = zero ∧ at_ (four zero zero 0x06 zero) 2 ≠ zero ∧
    at_ (four zero 0xBF zero zero) 0 = zero ∧ at_ (four zero 0xBF zero zero) 1 ≠ zero ∧
    at_ (four 0x00 zero zero zero) 0 ≠ zero ∧ (ask { op := 0x33, din := [0x3F] }).req.dlen ≠ 4 := by decide +kernel

theorem witness_IntegerDisplayShowsNumber :
    (x0Of (-999) 0x34).busy = false ∧ (x0Of (-999) 0x34).cfg.seg.wf = true ∧
    -999 ≤ (x0Of (-999) 0x34).req.x0.toInt ∧ (x0Of (-999) 0x34).req.x0.toInt ≤ 9999 ∧
    (x0Of 9999 0x34).req.x0.toInt = 9999 ∧ (x0Of (-1000) 0x34).req.x0.toInt < -999 ∧
    9999 < (x0Of 10000 0x34).req.x0.toInt := by decide

/-- A fixed-point request. -/
def fixed (m p : Int) : State := ask { op := 0x35, x0 := BitVec.ofInt 16 m, x2 := BitVec.ofInt 16 p }

theorem witness_FixedPointDisplayShowsNumber :
    (fixed (-999) 3).busy = false ∧ (fixed (-999) 3).cfg.seg.wf = true ∧ (fixed (-999) 3).req.x2.toInt = 3 ∧
    (fixed (-999) 3).req.x0.toInt = -999 ∧ (fixed 9999 0).req.x0.toInt = 9999 ∧ (fixed 9999 0).req.x2.toInt = 0 ∧
    (fixed 0 (-1)).req.x2.toInt < 0 ∧ 3 < (fixed 0 4).req.x2.toInt ∧ (fixed (-1000) 1).req.x0.toInt < -999 ∧
    9999 < (fixed 10000 1).req.x0.toInt := by decide

theorem witness_StringDisplayFillsSlots :
    (ask { op := 0x36 }).busy = false ∧ (ask { op := 0x36 }).cfg.seg.wf = true ∧
    slotsOf defaultSeg 4 [0x31, 0x2E, 0x2E, 0x35] = [0x86, 0x80, 0x6D] ∧
    slotsOf defaultSeg 4 [0x31, 0x2E, 0x32, 0x2E, 0x33, 0x2E, 0x34, 0x2E] = [0x86, 0xDB, 0xCF, 0x66] := by decide

/-- A clock request. -/
def clock (hour minute : Int) : State :=
  ask { op := 0x37, x0 := BitVec.ofInt 16 hour, x1 := BitVec.ofInt 16 minute, x2 := 1, x3 := 1 }

theorem witness_ClockDisplayShowsTime :
    (clock 23 59).busy = false ∧ (clock 23 59).cfg.seg.wf = true ∧ (clock 23 59).req.x0.toInt = (23 : Nat) ∧
    (clock 23 59).req.x1.toInt = (59 : Nat) ∧ (clock 0 0).req.x0.toInt = (0 : Nat) ∧ 23 < (clock 24 0).req.x0.toInt ∧
    (clock (-1) 0).req.x0.toInt < 0 ∧ 59 < (clock 0 60).req.x1.toInt ∧ (clock 0 (-1)).req.x1.toInt < 0 := by decide

/-- A duration request. -/
def duration (hours minutes seconds mode : Int) : State :=
  ask { op := 0x38, x0 := BitVec.ofInt 16 hours, x1 := BitVec.ofInt 16 minutes, x2 := BitVec.ofInt 16 seconds, x3 := BitVec.ofInt 16 mode }

theorem witness_DurationDisplayShowsValue :
    (duration (-9) (-99) 0 0).busy = false ∧ (duration (-9) (-99) 0 0).req.x3.toInt = 0 ∧
    (duration (-9) (-99) 0 0).req.x0.toInt * 100 + (duration (-9) (-99) 0 0).req.x1.toInt = -999 ∧
    (duration 0 99 99 1).req.x1.toInt * 100 + (duration 0 99 99 1).req.x2.toInt = 9999 ∧
    (duration 0 (-10) 0 2).req.x1.toInt ≤ -10 ∧ (duration 0 0 0 3).req.x3.toInt > 2 ∧
    (duration 0 0 0 (-1)).req.x3.toInt < 0 ∧
    9999 < (duration 100 0 0 0).req.x0.toInt * 100 + (duration 100 0 0 0).req.x1.toInt ∧
    (duration (-10) 0 0 0).req.x0.toInt * 100 + (duration (-10) 0 0 0).req.x1.toInt < -999 := by decide

theorem witness_TemperatureDisplayShowsDegrees :
    (x0Of (-990) 0x39).busy = false ∧ (x0Of (-990) 0x39).cfg.seg.wf = true ∧
    (x0Of (-990) 0x39).cfg.tempRound = .towardZero ∧ (x0Of (-990) 0x39).req.x0.toInt = -990 ∧
    (x0Of 9990 0x39).req.x0.toInt = 9990 ∧ (x0Of (-991) 0x39).req.x0.toInt < -990 ∧
    9990 < (x0Of 9991 0x39).req.x0.toInt := by decide

/-- Two states that differ in every register `VE.FIX` does not read. -/
theorem witness_UnlistedOperandsAreIgnored :
    let s := ask { op := 0x35, x0 := 314, x2 := 2 }
    let s' := { s with req := { s.req with x3 := 7, ep := 1, subEn := true, sub := 9, din := Memory.ofBytes [1], dlen := 1 }, rdy := true }
    s.busy = false ∧ s'.busy = false ∧ s'.cfg = s.cfg ∧ s'.free = s.free ∧
    s'.req.x0 = s.req.x0 ∧ s'.req.x1 = s.req.x1 ∧ s'.req.x2 = s.req.x2 ∧ s'.req ≠ s.req := by decide +kernel

/-- For the byte-sequence operands: `DIN` differs beyond `DLEN` only. -/
theorem witness_UnlistedOperandsAreIgnored_bytes :
    let s := ask { op := 0x33, din := [1, 2, 3, 4] }
    let s' := { s with req := { s.req with din := Memory.ofBytes [1, 2, 3, 4, 5] } }
    s'.req.dlen = s.req.dlen ∧ (∀ a, a < s.req.dlen.toNat → s'.req.din.read a = s.req.din.read a) ∧ s'.req ≠ s.req := by
  decide +kernel

theorem witness_AdmissionChecksInOrder :
    let unknown := ask { op := 0x20, ep := 0x05 }
    let sub := ask { op := 0x20, ep := 0x01, subEn := true }
    let above := ask { op := 0x20, ep := 0x01, din := List.replicate 16 0 }
    let wide := ask { op := 0x20, ep := 0x01, din := List.replicate 5 0 }
    unknown.busy = false ∧ endpoint? unknown.cfg unknown.req.ep = none ∧
    endpoint? sub.cfg sub.req.ep = some ⟨0x01, 4, false, false⟩ ∧ sub.req.subEn ≠ false ∧
    above.req.subEn = false ∧ above.cfg.frameLen.toNat - 3 < 0 + above.req.dlen.toNat ∧
    0 + wide.req.dlen.toNat ≤ wide.cfg.frameLen.toNat - 3 ∧ 4 < 0 + wide.req.dlen.toNat := by decide

theorem witness_AdmittedSetStarts :
    let s := ask { op := 0x20, ep := 0x03, subEn := true, sub := 1, din := List.replicate 14 0x48 } charConfig
    s.busy = false ∧ endpoint? s.cfg s.req.ep = some ⟨0x03, 15, true, false⟩ ∧ s.req.subEn = true ∧
    ([s.req.sub] ++ s.req.din.bytes s.req.dlen.toNat).length ≤ s.cfg.frameLen.toNat - 3 ∧
    ([s.req.sub] ++ s.req.din.bytes s.req.dlen.toNat).length ≤ 15 := by decide +kernel

theorem witness_AdmittedGetStarts :
    let s := ask { op := 0x21, ep := 0x02 } charConfig
    s.busy = false ∧ endpoint? s.cfg s.req.ep = some ⟨0x02, 15, false, true⟩ ∧ s.req.subEn = false := by decide

theorem witness_DisplayOperationStartsSet :
    (x0Of (-999) 0x40).busy = false ∧ (x0Of (-999) 0x40).cfg.wf = true ∧
    (x0Of (-999) 0x40).cfg.moduleType = .sevenSegment ∧ OperandsInRange .dispInt (x0Of (-999) 0x40) ∧
    OperandsInRange .dispFix (fixed 9999 3) ∧ OperandsInRange .dispStr (x0Of 0 0x42) ∧
    OperandsInRange .dispClk (clock 23 59) ∧ OperandsInRange .dispTmp (x0Of 9990 0x45) := by
  simp only [OperandsInRange]; decide

theorem witness_DisplayOperationStartsSet_duration :
    OperandsInRange .dispDur (duration 0 (-12) 0 2) ∧ OperandsInRange .dispDur (duration 0 99 99 1) := by
  simp only [OperandsInRange]; decide

theorem witness_DisplayOperationRaisesFirst :
    (ask { op := 0x42 } charConfig).busy = false ∧ (ask { op := 0x42 } charConfig).cfg.moduleType = .character ∧
    ¬ OperandsInRange .dispInt (x0Of 10000 0x40) ∧ ¬ OperandsInRange .dispDur (duration 0 0 0 3) := by
  simp only [OperandsInRange]; decide

theorem witness_WriteFrameIsSent :
    Inv (mid .sending .set .wr 0x03 charConfig) ∧ (mid .sending .set .wr 0x03 charConfig).cfg.moduleType = .character ∧
    (mid .sending .set .wr 0x03 charConfig).cc.st = .sending ∧ (mid .sending .set .wr 0x03 charConfig).cc.phase = .wr ∧
    (mid .sending .set .wr 0x03 charConfig).cc.ep = 0x03 ∧ response.length = charConfig.n :=
  ⟨inv_line_wr, by decide⟩

theorem witness_WriteFrameIsSent_seven_segment :
    Inv (mid .sending .set .wr) ∧ (mid .sending .set .wr).cfg.moduleType = .sevenSegment ∧
    (mid .sending .set .wr).cc.phase = .wr ∧ (mid .sending .set .wr).cc.ep = 0x01 :=
  ⟨inv_sending_wr, by decide⟩

theorem witness_ReadFrameIsSent :
    Inv (mid .sending .set .rd 0x03 charConfig 1 1) ∧
    (mid .sending .set .rd 0x03 charConfig 1 1).cfg.moduleType = .character ∧
    (mid .sending .set .rd 0x03 charConfig 1 1).cc.st = .sending ∧
    (mid .sending .set .rd 0x03 charConfig 1 1).cc.phase = .rd ∧ (mid .sending .set .rd 0x03 charConfig 1 1).cc.ep = 0x03 :=
  ⟨inv_line_rd, by decide⟩

theorem witness_ReadFrameIsSent_seven_segment :
    Inv (mid .sending .get .rd) ∧ (mid .sending .get .rd).cfg.moduleType = .sevenSegment ∧
    (mid .sending .get .rd).cc.phase = .rd ∧ (mid .sending .get .rd).cc.ep = 0x01 :=
  ⟨inv_sending_rd, by decide⟩

theorem witness_PollFrameIsSent : Inv (mid .polling .get .rd) ∧ (mid .polling .get .rd).cc.st = .polling :=
  ⟨inv_polling, rfl⟩

/-- The poll out of `Polling`; a WRITE row in another state, with the other phase, with another endpoint, on the other module
type. -/
theorem witness_NoFrameOutOfTurn :
    (mid .sending .get .rd).cc.st ≠ .polling ∧ (mid .polling .get .rd).cc.st ≠ .sending ∧
    ((mid .sending .get .rd).cc.st = .sending ∧ (mid .sending .get .rd).cc.phase ≠ .wr) ∧
    ((mid .sending .set .wr 0x02).cc.phase = .wr ∧ (mid .sending .set .wr 0x02).cc.ep ≠ 0x01) ∧
    ((mid .sending .set .wr 0x01 charConfig).cc.ep = 0x01 ∧
      (mid .sending .set .wr 0x01 charConfig).cfg.moduleType ≠ .sevenSegment) := by decide

theorem witness_WaitTakesTheLatch :
    (linesNow (mid .awaitingSignal .get .rd)).reset = false ∧ (mid .awaitingSignal .get .rd).cc.st = .awaitingSignal := by
  decide

theorem inv_validating_set : Inv (validating .set response) := by
  constructor <;> decide +kernel

theorem inv_validating_get : Inv (validating .get (List.replicate 18 0xFF)) := by
  constructor <;> decide +kernel

/-- The three ways out of `Validating`: taken by a get, equal, not taken. -/
theorem witness_ResponseIsValidated :
    Inv (validating .set response) ∧ (linesNow (validating .set response)).reset = false ∧
    (validating .set response).cc.st = .validating ∧
    endpoint? (validating .set response).cfg (validating .set response).cc.ep = some ⟨0x01, 4, false, false⟩ ∧
    accept (validating .set response) = true ∧ accept (validating .get (List.replicate 18 0xFF)) = false ∧
    readBackEqual (takeResponse (validating .set response)) = true :=
  ⟨inv_validating_set, by decide +kernel⟩

theorem witness_ReadBudgetIsSpent :
    (linesNow (mid .retryInner .get .rd)).reset = false ∧ (mid .retryInner .get .rd).cc.st = .retryInner ∧
    (mid .retryInner .get .rd).cc.rcnt - 1 ≠ 0 ∧ (mid .retryInner .set .rd 0x01 defaultConfig 36 1).cc.rcnt - 1 = 0 ∧
    (mid .retryInner .set .rd 0x01 defaultConfig 36 1).cc.kind = .set := by decide

theorem witness_WriteBudgetIsSpent :
    (linesNow (mid .retryOuter .set .rd)).reset = false ∧ (mid .retryOuter .set .rd).cc.st = .retryOuter ∧
    (mid .retryOuter .set .rd).cc.wcnt - 1 ≠ 0 ∧ (mid .retryOuter .set .rd 0x01 defaultConfig 1 0).cc.wcnt - 1 = 0 := by
  decide

theorem inv_get_success : Inv (mid .success .get .rd) := by
  constructor <;> decide +kernel

theorem inv_get_failed : Inv (mid .failed .get .rd 0x01 defaultConfig 0 0) := by
  constructor <;> decide +kernel

theorem witness_GetDeliversItsResult :
    Inv (mid .success .get .rd) ∧ Inv (mid .failed .get .rd 0x01 defaultConfig 0 0) ∧
    (linesNow (mid .success .get .rd)).reset = false ∧ (mid .success .get .rd).cc.kind = .get ∧
    endpoint? (mid .success .get .rd).cfg (mid .success .get .rd).cc.ep = some ⟨0x01, 4, false, false⟩ ∧
    (mid .success .get .rd).cc.st = .success ∧ (mid .failed .get .rd 0x01 defaultConfig 0 0).cc.st = .failed :=
  ⟨inv_get_success, inv_get_failed, by decide⟩

theorem witness_SetReportsItsStatus :
    (linesNow (mid .success .set .rd)).reset = false ∧ (mid .success .set .rd).cc.kind = .set ∧
    (mid .success .set .rd).disp = none ∧ (mid .success .set .rd).cc.st = .success ∧
    (mid .failed .set .rd 0x01 defaultConfig 0 0).cc.st = .failed := by decide

/-- A temperature display whose set has ended in `st`, with these sets still to start. -/
def displaying (st : SeqState) (pending : List SetReq) : State :=
  { mid st .set .rd with disp := some ⟨pending, true⟩ }

theorem inv_displaying :
    Inv (displaying .success tmpIndicators) ∧ Inv (displaying .success []) ∧ Inv (displaying .idle tmpIndicators) := by
  refine ⟨?_, ?_, ?_⟩ <;> constructor <;> decide +kernel

/-- Between two sets `CC.st` is `Idle` and the block still busy; the step after starts the next set, whatever start says. -/
theorem test_display_set_ends_in_idle :
    next (step (displaying .failed tmpIndicators))
      (fun t => t.cc.st == .idle && t.busy && !t.done && t.disp == some ⟨tmpIndicators, false⟩) = true := by
  decide +kernel

theorem test_next_display_set_starts :
    next (step { displaying .idle tmpIndicators with start := true })
      (fun t => t.cc.st == .sending && t.cc.ep == 0x04 && t.cc.want.take 1 == [0x01] && !t.start &&
        t.disp == some ⟨[⟨0x03, [0x00]⟩], true⟩) = true := by decide +kernel

theorem witness_DisplaySetsRunInOrder :
    (Inv (displaying .success tmpIndicators) ∧ Inv (displaying .success []) ∧ Inv (displaying .idle tmpIndicators)) ∧
    (linesNow (displaying .success [])).reset = false ∧ (linesNow (displaying .idle tmpIndicators)).reset = false ∧
    (displaying .success tmpIndicators).disp = some ⟨tmpIndicators, true⟩ ∧
    (displaying .success []).disp = some ⟨[], true⟩ ∧ (displaying .success []).cc.st = .success ∧
    (displaying .idle tmpIndicators).cc.st = .idle ∧
    (displaying .idle tmpIndicators).disp = some ⟨⟨0x04, [0x01]⟩ :: [⟨0x03, [0x00]⟩], true⟩ :=
  ⟨inv_displaying, by decide⟩

/-- An idle block with a request started, and a busy one about to poll. -/
theorem witness_StepRunsDecodedInstruction :
    (linesNow (ask { op := 0x13 })).reset = false ∧ (ask { op := 0x13 }).start = true ∧
    decode (ask { op := 0x13 }).cfg.moduleType (fetchBytes (ask { op := 0x13 })) = .ok .fcPoll ∧
    Instr.wf (ask { op := 0x13 }).cfg.moduleType .fcPoll = true ∧
    decode (mid .polling .get .rd).cfg.moduleType (fetchBytes (mid .polling .get .rd)) = .ok .poll ∧
    (mid .polling .get .rd).cc.st ≠ .idle :=
  ⟨rfl, rfl, rfl, rfl, rfl, by decide⟩

theorem witness_ReservedCodeRaisesErrOp :
    (linesNow (ask { op := 0x46 })).reset = false ∧ (ask { op := 0x46 }).busy = false ∧
    (ask { op := 0x46 }).start = true ∧ ∀ i, encode i ≠ [(ask { op := 0x46 }).req.op] :=
  ⟨rfl, rfl, rfl, fun i => by cases i <;> decide⟩

theorem witness_StartWhileBusyHasNoEffect :
    (mid .validating .set .rd).cc.st ≠ .idle ∧ (mid .validating .set .rd).busy = true ∧
    (displaying .idle tmpIndicators).busy = true ∧ (encode .fcPoll).length = 1 := by decide

/-- The three clauses of the latch: reset, a step that is no wait, a wait. -/
theorem witness_ReadyLatchPersists :
    let reset := { mid .polling .set .rd with lines := [{ ready := true, reset := true }] }
    next (step reset) (fun _ => true) = true ∧ (linesNow reset).reset = true ∧
    next (step (mid .retryInner .get .rd)) (fun _ => true) = true ∧ (mid .retryInner .get .rd).cc.st ≠ .awaitingSignal ∧
    next (step (mid .awaitingSignal .get .rd)) (fun _ => true) = true := by decide +kernel

theorem witness_ResetFromAnyState :
    (linesNow { mid .polling .set .rd with lines := [{ reset := true }] }).reset = true := by decide

theorem witness_OnlyTheHostWritesRequests :
    let s := { State.reset with host := [setColon true], lines := [{}] }
    next (step s) (fun t => t.req != s.req && t.start) = true ∧ (linesNow s).reset = false := by decide +kernel

/-- The clause on a block at rest, with a request left and with none. -/
theorem witness_OnlyTheHostWritesRequests_rest :
    let s := { State.reset with host := [setColon true], lines := [{}] }
    let r := { State.reset with lines := [{ ready := true }] }
    s.busy = false ∧ s.start = false ∧ (linesNow s).reset = false ∧ r.busy = false ∧ r.start = false ∧ r.host = [] ∧
    next (step r) (fun t => t.cc == r.cc && t.rdy) = true := by decide +kernel

/-- A raw pass-through that the host has started. -/
def rawAsked : State := { ask { op := 0x20, ep := 0x02, din := [0x48] } charConfig with lines := [{}] }

theorem inv_rawAsked : Inv rawAsked := by
  constructor <;> decide +kernel

theorem witness_MessageIdCountsAcceptedCalls :
    Inv rawAsked ∧ (linesNow rawAsked).reset = false ∧ next (step rawAsked) (fun t => t.msgid != rawAsked.msgid) = true :=
  ⟨inv_rawAsked, by decide +kernel⟩

theorem witness_ErrorTiersNeverMerge :
    (linesNow (mid .failed .set .rd 0x01 defaultConfig 0 0)).reset = false ∧
    (mid .failed .set .rd 0x01 defaultConfig 0 0).busy = true ∧
    next (step (mid .failed .set .rd 0x01 defaultConfig 0 0)) (fun t => t.res.st == .fail) = true ∧
    { ask { op := 0x46 } with lines := [{}] }.busy = false ∧
    next (step { ask { op := 0x46 } with lines := [{}] }) (fun t => t.res.st == .errOp && t.cc.st == .idle) = true ∧
    next (step { ask { op := 0x40 } with lines := [{}] }) (fun t => t.cc.st == .sending) = true := by decide +kernel

/-- The host is about to ask for `SetDisplayValue`. -/
def askedSet : State := { State.reset with host := [setDisplayValue 0x06 0x5B 0x4F 0x66] }

theorem inv_askedSet : Inv askedSet := by
  constructor <;> decide +kernel

theorem witness_HostRequestIsPlacedAndRun :
    Inv askedSet ∧ askedSet.cfg.moduleType = .sevenSegment ∧ NoReset askedSet ∧ askedSet.busy = false ∧
    askedSet.start = false ∧ askedSet.host = setDisplayValue 0x06 0x5B 0x4F 0x66 :: [] :=
  ⟨inv_askedSet, rfl, (fun _ h => by cases h), rfl, rfl, rfl⟩

theorem witness_ResetMeetsInv : charConfig.wf = true := by decide

theorem witness_StepKeepsInv : Inv (mid .sending .set .wr) ∧ next (step (mid .sending .set .wr)) (fun _ => true) = true :=
  ⟨inv_sending_wr, by decide +kernel⟩

theorem witness_LegalStepNeverStops : Inv (validating .set response) := inv_validating_set

/-- The first WRITE of a set is about to be sent; nothing is recorded yet. -/
theorem accounts_sending_wr : Accounts (mid .sending .set .wr) := by
  constructor <;> decide

theorem witness_StepKeepsAccounts :
    Inv (mid .sending .set .wr) ∧ Accounts (mid .sending .set .wr) ∧
    next (step (mid .sending .set .wr)) (fun _ => true) = true :=
  ⟨inv_sending_wr, accounts_sending_wr, by decide +kernel⟩

theorem accounts_sending_rd : Accounts (mid .sending .get .rd) := by
  constructor <;> decide

/-- A get that has failed: four READ requests, four waits, nothing else. -/
def failedGet : State :=
  let s := mid .failed .get .rd 0x01 defaultConfig 0 0
  { s with cc := { s.cc with seq := (List.replicate 4 [Event.exch [0x80, 0x01] [], .wait false]).flatten } }

theorem inv_failedGet : Inv failedGet := by
  constructor <;> decide +kernel

theorem accounts_failedGet : Accounts failedGet := by
  constructor <;> decide

theorem witness_TransactionBounds :
    (Inv (mid .sending .set .wr) ∧ Accounts (mid .sending .set .wr) ∧ (mid .sending .set .wr).cc.st ≠ .idle ∧
      (mid .sending .set .wr).cc.kind = .set) ∧
    (Inv failedGet ∧ Accounts failedGet ∧ failedGet.cc.st ≠ .idle ∧ failedGet.cc.kind = .get) :=
  ⟨⟨inv_sending_wr, accounts_sending_wr, by decide, rfl⟩, inv_failedGet, accounts_failedGet, by decide, rfl⟩

/-- A set that has failed after thirty-six WRITE frames. -/
def failedSet : State :=
  let s := mid .failed .set .rd 0x01 defaultConfig 0 4
  let attempt := [Event.exch [0x80, 0x81] [], .exch [0x80, 0x01] [], .wait true, .exch [0x80, 0x00] []]
  { s with cc := { s.cc with seq := (List.replicate 36 attempt).flatten } }

theorem inv_failedSet : Inv failedSet := by
  constructor <;> decide +kernel

theorem accounts_failedSet : Accounts failedSet := by
  constructor <;> decide +kernel

theorem witness_TransactionBounds_failed :
    Inv failedSet ∧ Accounts failedSet ∧ failedSet.cc.st = .failed ∧ failedSet.cc.kind = .set :=
  ⟨inv_failedSet, accounts_failedSet, rfl, rfl⟩

theorem witness_BusyStepLowersMeasure :
    Inv (validating .set response) ∧ (linesNow (validating .set response)).reset = false ∧
    (validating .set response).busy = true ∧ next (step (validating .set response)) (fun _ => true) = true :=
  ⟨inv_validating_set, by decide +kernel⟩

/-- The `Idle` between two sets is a busy state too. -/
theorem witness_BusyStepLowersMeasure_idle :
    Inv (displaying .idle tmpIndicators) ∧ (displaying .idle tmpIndicators).busy = true ∧
    next (step (displaying .idle tmpIndicators)) (fun t => decide (busyMeasure t < 4800)) = true ∧
    busyMeasure (displaying .idle tmpIndicators) = 4800 :=
  ⟨inv_displaying.2.2, by decide +kernel⟩

theorem noReset_mid (st : SeqState) (kind : Kind) (phase : Phase) : NoReset (mid st kind phase) := by
  intro l h
  rw [List.eq_of_mem_replicate h]

theorem witness_EveryTransactionEnds :
    Inv (mid .sending .set .wr) ∧ NoReset (mid .sending .set .wr) ∧ (mid .sending .set .wr).busy = true :=
  ⟨inv_sending_wr, noReset_mid _ _ _, by decide⟩

/-- A set about to be answered by an ideal module, the ready edge at the wait. -/
def answered : State :=
  { mid .sending .set .wr with
    lines := [{}, {}, { ready := true }, {}]
    answers := [List.replicate 18 0, List.replicate 18 0, response] }

theorem inv_answered : Inv answered := by
  constructor <;> decide +kernel

theorem witness_SetSucceedsOnEqualReadBack :
    Inv answered ∧ answered.cc.st = .sending ∧ answered.cc.phase = .wr ∧ answered.cc.kind = .set ∧ answered.disp = none ∧
    endpoint? answered.cfg answered.cc.ep = some ⟨0x01, 4, false, false⟩ ∧
    answered.lines = {} :: {} :: { ready := true } :: [{}] ∧ NoReset answered ∧
    answered.answers = List.replicate 18 0 :: List.replicate 18 0 :: response :: [] ∧
    response.length = answered.cfg.n ∧ trailerOk answered.cfg response = true ∧
    response.getD answered.cfg.cmdOffset.toNat 0 = answered.cc.ep.setWidth 8 ∧
    ((response.drop 2).take (answered.cfg.n - 3)).take 4 = pad (answered.cc.want.take answered.cc.wlen.toNat) 4 := by
  refine ⟨inv_answered, rfl, rfl, rfl, rfl, by decide, rfl, ?_, rfl, by decide, by decide +kernel, by decide, by decide⟩
  intro l h
  rcases List.mem_cons.1 h with rfl | h
  · rfl
  · fin_cases h <;> rfl

theorem inv_validating_zeros : Inv (validating .set (List.replicate 18 0)) := by
  constructor <;> decide +kernel

theorem inv_validating_poll : Inv (validating .set (pollFrame defaultConfig)) := by
  constructor <;> decide +kernel

theorem witness_DeadBusIsRejected :
    Inv (validating .set (List.replicate 18 0)) ∧ Inv (validating .get (List.replicate 18 0xFF)) ∧
    Inv (validating .set (pollFrame defaultConfig)) ∧
    (linesNow (validating .set (List.replicate 18 0))).reset = false ∧
    (validating .set (List.replicate 18 0)).cc.st = .validating ∧ defaultConfig.cmdOffset = 1 ∧
    (validating .set (List.replicate 18 0)).rxbuf.bytes 18 = List.replicate 18 0x00 ∧
    (validating .get (List.replicate 18 0xFF)).rxbuf.bytes 18 = List.replicate 18 0xFF ∧
    (validating .set (pollFrame defaultConfig)).rxbuf.bytes 18 = pollFrame defaultConfig :=
  ⟨inv_validating_zeros, inv_validating_get, inv_validating_poll, by decide +kernel⟩

end Sys2Proof.Machine.Tests
end

namespace Sys2Proof.Machine

/-! ### No step of a legal state stops (00_scope R13, 60_exceptions R232)

`step` can stop in two places: at a fetched frame that the frame opcode map does not list or that is out of turn, and at
a validation that reads beyond the response. A known endpoint excludes the first, a legal configuration the second. -/

/-- In `Sending` the frame about to be sent is a row of the map and in turn, in either phase (42_command_channel R136,
R137, 30_encoding R78). -/
theorem runFetched_sending_next {s : State} (hc : s.cfg.wf = true) (hst : s.cc.st = .sending)
    (he : (endpoint? s.cfg s.cc.ep).isSome = true) : ∃ t, runFetched s = .next t := by
  cases hp : s.cc.phase with
  | wr => exact ⟨_, runFetched_write (sync_eq hc) hst hp he⟩
  | rd => exact ⟨_, runFetched_read (sync_eq hc) hst hp he⟩

/-- In `Validating` every offset that is read lies inside the response (20_memory R54, 42_command_channel R141). -/
theorem stepValidate_next {s : State} (hc : s.cfg.wf = true) : ∃ t, stepValidate s = .next t :=
  ⟨_, if_pos (responseInside_of_wf hc)⟩

/-- In `Idle` nothing stops, whatever `OP` and the display progress hold: an operation that is run ends, and a reserved
code raises `ERR_OP` (60_exceptions R224, R228). -/
theorem blockStep_idle_next {s : State} (hst : s.cc.st = .idle) : ∃ t, blockStep s = .next t := by
  simp only [blockStep, hst]
  cases hp : setPending s.disp with
  | true => exact ⟨_, rfl⟩
  | false =>
    cases hs : s.start with
    | false => exact ⟨_, rfl⟩
    | true =>
      have hfree : (takeStart s).busy = false := busy_eq_false.2 ⟨hst, hp⟩
      obtain ⟨t, ht, _⟩ := runFetched_free hfree
      exact ⟨t, ht⟩

/-- The block's own step has a next state in every sequencer state (42_command_channel R147), given a legal configuration
and a listed endpoint for the transaction under way. -/
theorem blockStep_next {s : State} (hc : s.cfg.wf = true)
    (he : s.cc.st ≠ .idle → (endpoint? s.cfg s.cc.ep).isSome = true) : ∃ t, blockStep s = .next t := by
  cases hst : s.cc.st with
  | idle => exact blockStep_idle_next hst
  | sending =>
    simp only [blockStep, hst]
    exact runFetched_sending_next (s := takeStart s) hc hst (he (by simp [hst]))
  | polling =>
    simp only [blockStep, hst]
    exact ⟨_, runFetched_poll (s := takeStart s) (sync_eq hc) hst⟩
  | validating =>
    simp only [blockStep, hst]
    exact stepValidate_next (s := takeStart s) hc
  | awaitingSignal | retryInner | retryOuter | success | failed =>
    simp only [blockStep, hst]
    exact ⟨_, rfl⟩

/-- Settles O51: reset has a next state, and sampling the lines changes neither the configuration nor the channel, so
the block's step has one too. -/
theorem legalStepNeverStops : Obligations.LegalStepNeverStops := by
  intro s hinv
  unfold step
  cases (linesNow s).reset with
  | true => exact ⟨_, rfl⟩
  | false => exact blockStep_next (s := sample s) hinv.cfgWf hinv.epKnown

end Sys2Proof.Machine

namespace Sys2Proof.Machine

/-! ### The endpoint table (10_state R24) -/

theorem epTable_sevenSegment {c : Config} (hm : c.moduleType = .sevenSegment) :
    epTable c = [⟨0x01, 4, false, false⟩, ⟨0x02, 1, false, false⟩, ⟨0x03, 1, false, false⟩,
      ⟨0x04, 1, false, false⟩] := by
  simp [epTable, hm]

theorem epTable_character {c : Config} (hm : c.moduleType = .character) :
    epTable c = [⟨0x01, c.wColor.toNat, false, false⟩, ⟨0x02, c.wRaw.toNat, false, true⟩,
      ⟨0x03, c.wLine.toNat, true, false⟩, ⟨0x04, c.wCustom.toNat, true, false⟩] := by
  simp [epTable, hm]

theorem mem_epTable_of_endpoint? {c : Config} {ep : BitVec 7} {e : Endpoint} (h : endpoint? c ep = some e) :
    e ∈ epTable c :=
  List.mem_of_find?_eq_some h

/-- The open widths of a legal character module fit the frame (10_state R24). -/
theorem open_widths_fit {c : Config} (h : c.wf = true) (hm : c.moduleType = .character) :
    ∀ w ∈ [c.wColor, c.wRaw, c.wLine, c.wCustom], 1 ≤ w.toNat ∧ w.toNat ≤ c.pcap := by
  simp only [Config.wf, Bool.and_eq_true] at h
  obtain ⟨⟨_, hw⟩, _⟩ := h
  simpa [Config.widthsOk, Config.widthOk, hm, and_assoc] using hw

theorem four_le_pcap {c : Config} (h : c.wf = true) (hm : c.moduleType = .sevenSegment) : 4 ≤ c.pcap := by
  have h7 := seven_le_n h hm
  have hp : c.pcap = c.n - 3 := rfl
  omega

/-- Every width of the table lies in the frame. -/
theorem width_fits {c : Config} {ep : BitVec 7} {e : Endpoint} (h : c.wf = true) (he : endpoint? c ep = some e) :
    1 ≤ e.width ∧ e.width ≤ c.pcap := by
  have hmem := mem_epTable_of_endpoint? he
  cases hm : c.moduleType with
  | sevenSegment =>
    have h4 := four_le_pcap h hm
    simp only [epTable_sevenSegment hm, List.mem_cons, List.not_mem_nil, or_false] at hmem
    rcases hmem with rfl | rfl | rfl | rfl <;> simp <;> omega
  | character =>
    have hw := open_widths_fit h hm
    simp only [epTable_character hm, List.mem_cons, List.not_mem_nil, or_false] at hmem
    rcases hmem with rfl | rfl | rfl | rfl <;> exact hw _ (by simp)

/-- No endpoint of a seven-segment module counts message ids. -/
theorem msgid_false_of_sevenSegment {c : Config} {ep : BitVec 7} {e : Endpoint} (hm : c.moduleType = .sevenSegment)
    (he : endpoint? c ep = some e) : e.msgid = false := by
  have hmem := mem_epTable_of_endpoint? he
  simp only [epTable_sevenSegment hm, List.mem_cons, List.not_mem_nil, or_false] at hmem
  rcases hmem with rfl | rfl | rfl | rfl <;> rfl

/-- The sets of a display operation other than DisplayValue go to listed endpoints and fit them
(44_display_operations R206). -/
theorem tmpIndicators_known {c : Config} (hm : c.moduleType = .sevenSegment) :
    ∀ r ∈ tmpIndicators, (endpoint? c r.ep).isSome = true ∧ r.value.length ≤ 4 := by
  simp [tmpIndicators, endpoint?, epTable_sevenSegment hm]

/-- Settles O7: each listed code is found in the table of its module type, no other code is, and the widths are those of
`width_fits`. -/
theorem endpointTableAsListed : Obligations.EndpointTableAsListed := by
  intro c
  refine ⟨fun hm => ?_, fun hm => ?_, fun ep hep => ?_, fun h ep e he => width_fits h he⟩
  · simp [endpoint?, epTable_sevenSegment hm]
  · simp [endpoint?, epTable_character hm]
  · by_contra hne
    have hsome : (endpoint? c ep).isSome = true := Option.isSome_iff_ne_none.2 hne
    rcases endpoint?_code hsome with rfl | rfl | rfl | rfl <;> simp at hep

end Sys2Proof.Machine

namespace Sys2Proof.Machine

/-! ### Reset meets the invariant (10_state R37, R38) -/

theorem inv_resetOf {c : Config} (h : c.wf = true) : Inv (State.resetOf c) where
  cfgWf := h
  txWf := wf_empty _
  rxWf := wf_empty _
  dinWf := wf_empty _
  doutWf := wf_empty _
  wcntLe := Nat.zero_le _
  rcntLe := Nat.zero_le _
  wlenLe := Nat.zero_le _
  wantLen := List.length_replicate
  gotLen := List.length_replicate
  rcntPos := nofun
  wcntPos := fun hst => absurd rfl hst
  phaseRd := fun hst => absurd rfl hst
  getPhase := fun hst => absurd rfl hst
  outerSet := nofun
  epKnown := fun hst => absurd rfl hst
  dispIdle := fun _ => rfl
  dispSet := nofun

/-- Settles O49: `inv_resetOf`, and the configuration of `State.reset` is legal. -/
theorem resetMeetsInv : Obligations.ResetMeetsInv :=
  ⟨fun _ => inv_resetOf, inv_resetOf (by decide)⟩

/-- Settles O44: the step is `applyReset`, which takes the block's own registers from `State.resetOf`. -/
theorem resetFromAnyState : Obligations.ResetFromAnyState := by
  intro s hr
  have hstep : step s = .next (applyReset (sample s)) := if_pos hr
  exact ⟨_, hstep, rfl, rfl, rfl, rfl, rfl, rfl, rfl, rfl, rfl⟩

/-! ### What leaves the sequencer where it is

Each operation writes fields that one or two clauses of the invariant speak of; the other clauses stay as they were. -/

theorem inv_sample {s : State} (h : Inv s) : Inv (sample s) := { h with }

theorem inv_takeStart {s : State} (h : Inv s) : Inv (takeStart s) := { h with }

theorem inv_applyReset {s : State} (h : Inv s) : Inv (applyReset s) := { inv_resetOf h.cfgWf with }

/-- `DIN` takes at most 255 bytes of a request (10_state R21). -/
theorem inv_stepAtRest {s : State} (h : Inv s) : Inv (stepAtRest s) := by
  cases hh : s.host with
  | nil => simpa only [stepAtRest, hh] using h
  | cons r rs =>
    simp only [stepAtRest, hh]
    exact { h with dinWf := wf_ofBytes (List.length_take_le _ _) }

theorem wf_drawDout {k : Nat} {old : Memory} {dout : Draw (List Byte)} (hold : old.wf 255 = true)
    (hd : ∀ bs, dout = .val bs → bs.length ≤ 255) : (drawDout k old dout).wf 255 = true := by
  cases dout with
  | val bs => exact wf_ofBytes (hd bs rfl)
  | keep => exact hold
  | any => exact wf_ofBytes (by simp [freeBytes]; omega)

theorem inv_putResults {s : State} {rv : Draw Word} {dout : Draw (List Byte)} (h : Inv s)
    (hd : ∀ bs, dout = .val bs → bs.length ≤ 255) : Inv (putResults rv dout s) :=
  { h with doutWf := wf_drawDout h.doutWf hd }

theorem inv_finish {s : State} {st : Status} {rv : Draw Word} {dout : Draw (List Byte)} (h : Inv s)
    (hd : ∀ bs, dout = .val bs → bs.length ≤ 255) : Inv (finish st rv dout s) :=
  { h with doutWf := wf_drawDout h.doutWf hd }

theorem inv_raise {s : State} {st : Status} (h : Inv s) : Inv (raise st s) := inv_finish h nofun

/-! ### The start of a transaction (42_command_channel R135) -/

theorem toNat_wBudget {c : Config} (h : c.wf = true) : c.wBudget.toNat = 36 := by
  rw [(budgets h).1]; rfl

theorem toNat_rBudget {c : Config} (h : c.wf = true) : c.rBudget.toNat = 4 := by
  rw [(budgets h).2]; rfl

theorem inv_beginSet {s : State} {ep : BitVec 7} {subEn : Bool} {want : List Byte} {disp : Option DispRun} (h : Inv s)
    (he : (endpoint? s.cfg ep).isSome = true) (hw : want.length ≤ s.cfg.pcap)
    (hd : ∀ d, disp = some d → s.cfg.moduleType = .sevenSegment ∧
      ∀ r ∈ d.pending, (endpoint? s.cfg r.ep).isSome = true ∧ r.value.length ≤ 4) :
    Inv (beginSet ep subEn want { s with disp := disp }) :=
  have hbudget := toNat_wBudget h.cfgWf
  { h with
    wcntLe := hbudget.le
    wlenLe := (Nat.mod_le _ _).trans hw
    wantLen := length_fit _ _
    rcntPos := nofun
    wcntPos := fun _ _ _ => by rw [beginSet_cc_wcnt, hbudget]; decide
    phaseRd := fun _ hst => absurd rfl hst
    getPhase := nofun
    outerSet := nofun
    epKnown := fun _ => he
    dispIdle := nofun
    dispSet := fun d hd' => ⟨rfl, hd d hd'⟩ }

theorem inv_beginGet {s : State} {ep : BitVec 7} {subEn : Bool} (h : Inv s)
    (he : (endpoint? s.cfg ep).isSome = true) : Inv (beginGet ep subEn { s with disp := none }) :=
  have hbudget := toNat_rBudget h.cfgWf
  { h with
    rcntLe := hbudget.le
    rcntPos := fun _ _ => by rw [beginGet_cc_rcnt, hbudget]; decide
    wcntPos := nofun
    phaseRd := fun _ _ => rfl
    getPhase := fun _ _ => rfl
    outerSet := nofun
    epKnown := fun _ => he
    dispIdle := nofun
    dispSet := nofun }

/-- A set of a display operation, with the sets that follow it (44_display_operations R200, R206). -/
theorem inv_beginDispSet {s : State} {r : SetReq} {d : DispRun} (h : Inv s) (hm : s.cfg.moduleType = .sevenSegment)
    (hd : ∀ q ∈ r :: d.pending, (endpoint? s.cfg q.ep).isSome = true ∧ q.value.length ≤ 4) :
    Inv (beginDispSet r { s with disp := some d }) := by
  obtain ⟨hr, hrest⟩ := List.forall_mem_cons.1 hd
  refine inv_beginSet h hr.1 (hr.2.trans (four_le_pcap h.cfgWf hm)) fun d' hd' => ?_
  cases hd'
  exact ⟨hm, hrest⟩

/-- Every way a host operation ends its first step. -/
theorem inv_hostStep {i : Instr} {s t : State} (h : Inv s) (ht : HostStep i s t) : Inv t := by
  cases ht with
  | ends st rv dout _ hd => exact inv_finish h hd
  | set want _ hw =>
    obtain ⟨e, he, _, _, hcap, _⟩ := admitSet_ok hw
    exact inv_beginSet h (Option.isSome_of_eq_some he) hcap nofun
  | get e _ hg => exact inv_beginGet h (Option.isSome_of_eq_some (admitGet_ok hg).1)
  | display rv d more _ hm hmore =>
    have hresults : Inv (putResults rv (.val d.toList) s) :=
      inv_putResults h (by rintro _ ⟨⟩; simp [Digits.toList])
    refine inv_beginDispSet hresults hm (List.forall_mem_cons.2 ⟨?_, ?_⟩)
    · simp [endpoint?, epTable_sevenSegment hm, Digits.toList]
    · rcases hmore with rfl | rfl
      · simp
      · exact tmpIndicators_known hm

/-! ### Moves of a transaction under way -/

/-- A move to another state of the same transaction after the WRITE, in the order of 42_command_channel R147. -/
theorem inv_goto {s : State} {st : SeqState} (h : Inv s) (hbusy : s.cc.st ≠ .idle) (hfailed : s.cc.st ≠ .failed)
    (hst : st ≠ .idle) (hp : s.cc.phase = .rd) (hget : st.inGet = true → s.cc.st.inGet = true)
    (houter : st = .retryOuter → s.cc.kind = .set) : Inv (goto st s) :=
  { h with
    rcntPos := fun hin => h.rcntPos (hget hin)
    wcntPos := fun _ _ => h.wcntPos hbusy hfailed
    phaseRd := fun _ _ => hp
    getPhase := fun _ _ => hp
    outerSet := houter
    epKnown := fun _ => h.epKnown hbusy
    dispIdle := fun hfree => absurd (busy_eq_false.1 hfree).1 hst }

theorem inv_exchange {s : State} {tx : List Byte} (h : Inv s) (htx : tx.length ≤ s.cfg.n) :
    Inv (exchange (loadTx tx s)) :=
  { h with
    txWf := wf_ofBytes htx
    rxWf := wf_ofBytes (length_answer _).le }

/-- The payload of a READ request fits the frame: where an endpoint has a sub-identifier, its width has room for it. -/
theorem length_readPayload_le {s : State} (h : s.cfg.wf = true) : (readPayload s).length ≤ s.cfg.pcap := by
  unfold readPayload
  cases he : endpoint? s.cfg s.cc.ep with
  | none => exact Nat.zero_le _
  | some e =>
    obtain ⟨hpos, hle⟩ := width_fits h he
    dsimp only
    split
    · exact hpos.trans hle
    · exact Nat.zero_le _

theorem length_writePayload_le {s : State} (h : Inv s) : (writePayload s).length ≤ s.cfg.pcap :=
  (List.length_take_le' _ _).trans h.wantLen.le

/-- The WRITE is out: the READ follows in the same state, with a fresh read budget (42_command_channel R136). -/
theorem inv_stepWrite {s : State} (h : Inv s) : Inv (stepWrite s) :=
  have hsent := inv_exchange h (length_frameOf (three_le_n h.cfgWf) (length_writePayload_le h)).le
  have hbudget := toNat_rBudget h.cfgWf
  { hsent with
    rcntLe := hbudget.le
    rcntPos := fun _ _ => hbudget.ge.trans' (by decide)
    phaseRd := fun _ _ => rfl
    getPhase := fun _ _ => rfl }

theorem inv_stepRead {s : State} (h : Inv s) (hst : s.cc.st = .sending) (hp : s.cc.phase = .rd) : Inv (stepRead s) :=
  inv_goto (inv_exchange h (length_frameOf (three_le_n h.cfgWf) (length_readPayload_le h.cfgWf)).le)
    (by simp [hst]) (by simp [hst]) (by decide) hp (by simp [hst, SeqState.inGet]) nofun

theorem inv_stepPoll {s : State} (h : Inv s) (hst : s.cc.st = .polling) : Inv (stepPoll s) :=
  inv_goto (inv_exchange h (length_pollFrame (three_le_n h.cfgWf)).le) (by simp [hst]) (by simp [hst]) (by decide)
    (h.phaseRd (by simp [hst]) (by simp [hst])) (by simp [hst, SeqState.inGet]) nofun

theorem inv_wait {s : State} (h : Inv s) : Inv (waitForSignal s).2 := { h with }

theorem inv_stepAwait {s : State} (h : Inv s) (hst : s.cc.st = .awaitingSignal) : Inv (stepAwait s) := by
  have hp : s.cc.phase = .rd := h.phaseRd (by simp [hst]) (by simp [hst])
  unfold stepAwait
  split <;>
    exact inv_goto (inv_wait h) (by simp [hst]) (by simp [hst]) (by decide) hp (by simp [hst, SeqState.inGet]) nofun

theorem inv_takeResponse {s : State} (h : Inv s) : Inv (takeResponse s) :=
  have hn := three_le_n h.cfgWf
  have hp : s.cfg.pcap = s.cfg.n - 3 := rfl
  { h with gotLen := by simp [payloadOf]; omega }

/-- An accepted response ends the inner get; only that of a set goes back to the outer loop (42_command_channel R142). -/
theorem afterAccept_cases (s : State) :
    afterAccept s = .success ∨ (afterAccept s = .retryOuter ∧ s.cc.kind = .set) := by
  unfold afterAccept
  cases s.cc.kind with
  | get => exact .inl rfl
  | set => cases readBackEqual s <;> simp

theorem inv_accept {s : State} (h : Inv s) (hst : s.cc.st = .validating) :
    Inv (goto (afterAccept (takeResponse s)) (takeResponse s)) := by
  have hp : s.cc.phase = .rd := h.phaseRd (by simp [hst]) (by simp [hst])
  rcases afterAccept_cases (takeResponse s) with ha | ⟨ha, hk⟩ <;> rw [ha]
  · exact inv_goto (inv_takeResponse h) (by simp [hst]) (by simp [hst]) (by decide) hp nofun nofun
  · exact inv_goto (inv_takeResponse h) (by simp [hst]) (by simp [hst]) (by decide) hp nofun fun _ => hk

/-! ### The retries (42_command_channel R143, R144)

A retry moves the sequencer and takes one attempt from a budget. The two commute, so each has a lemma of its own. -/

theorem inv_decRcnt {s : State} (h : Inv s) (hle : (s.cc.rcnt - 1).toNat ≤ 4)
    (hpos : s.cc.st.inGet = true → 1 ≤ (s.cc.rcnt - 1).toNat) : Inv (decRcnt s) :=
  { h with
    rcntLe := hle
    rcntPos := fun hin _ => hpos hin }

theorem inv_decWcnt {s : State} (h : Inv s) (hle : (s.cc.wcnt - 1).toNat ≤ 36)
    (hpos : s.cc.st ≠ .failed → 1 ≤ (s.cc.wcnt - 1).toNat) : Inv (decWcnt s) :=
  { h with
    wcntLe := hle
    wcntPos := fun _ hst _ => hpos hst }

theorem inv_sendAgain {s : State} {ph : Phase} (h : Inv s) (hbusy : s.cc.st ≠ .idle) (hfailed : s.cc.st ≠ .failed)
    (hrcnt : ph = .rd → 1 ≤ s.cc.rcnt.toNat) (hget : s.cc.kind = .get → ph = .rd) : Inv (sendAgain ph s) :=
  { h with
    rcntPos := fun _ => hrcnt
    wcntPos := fun _ _ => h.wcntPos hbusy hfailed
    phaseRd := fun _ hst => absurd rfl hst
    getPhase := fun _ => hget
    outerSet := nofun
    epKnown := fun _ => h.epKnown hbusy
    dispIdle := nofun }

theorem inv_stepRetryInner {s : State} (h : Inv s) (hst : s.cc.st = .retryInner) : Inv (stepRetryInner s) := by
  have hbusy : s.cc.st ≠ .idle := by simp [hst]
  have hfailed : s.cc.st ≠ .failed := by simp [hst]
  have hp : s.cc.phase = .rd := h.phaseRd hbusy (by simp [hst])
  have hpos : 1 ≤ s.cc.rcnt.toNat := h.rcntPos (by simp [hst, SeqState.inGet]) hp
  have hle : (s.cc.rcnt - 1).toNat ≤ 4 := by have := h.rcntLe; bv_omega
  unfold stepRetryInner
  split
  case isTrue hleft =>
    have hagain : Inv (sendAgain .rd s) := inv_sendAgain h hbusy hfailed (fun _ => hpos) (fun _ => rfl)
    exact inv_decRcnt hagain hle fun _ => by change 1 ≤ (s.cc.rcnt - 1).toNat; bv_omega
  case isFalse =>
    cases hk : s.cc.kind with
    | get => exact inv_decRcnt (inv_goto (st := .failed) h hbusy hfailed (by decide) hp nofun nofun) hle nofun
    | set =>
      exact inv_decRcnt (inv_goto (st := .retryOuter) h hbusy hfailed (by decide) hp nofun fun _ => hk) hle nofun

theorem inv_stepRetryOuter {s : State} (h : Inv s) (hst : s.cc.st = .retryOuter) : Inv (stepRetryOuter s) := by
  have hbusy : s.cc.st ≠ .idle := by simp [hst]
  have hfailed : s.cc.st ≠ .failed := by simp [hst]
  have hk : s.cc.kind = .set := h.outerSet hst
  have hpos : 1 ≤ s.cc.wcnt.toNat := h.wcntPos hbusy hfailed hk
  have hle : (s.cc.wcnt - 1).toNat ≤ 36 := by have := h.wcntLe; bv_omega
  unfold stepRetryOuter
  split
  case isTrue hleft =>
    have hagain : Inv (sendAgain .wr s) := inv_sendAgain h hbusy hfailed nofun (by simp [hk])
    exact inv_decWcnt hagain hle fun _ => by change 1 ≤ (s.cc.wcnt - 1).toNat; bv_omega
  case isFalse =>
    have hp : s.cc.phase = .rd := h.phaseRd hbusy (by simp [hst])
    exact inv_decWcnt (inv_goto (st := .failed) h hbusy hfailed (by decide) hp nofun nofun) hle fun hne => absurd rfl hne

/-! ### The end of a transaction (42_command_channel R145, R146, 44_display_operations R206) -/

theorem inv_goto_idle {s : State} (h : Inv s) (hd : setPending s.disp = false → s.disp = none) : Inv (goto .idle s) :=
  { h with
    rcntPos := nofun
    wcntPos := fun hst => absurd rfl hst
    phaseRd := fun hst => absurd rfl hst
    getPhase := fun hst => absurd rfl hst
    outerSet := nofun
    epKnown := fun hst => absurd rfl hst
    dispIdle := fun hfree => hd (busy_eq_false.1 hfree).2 }

theorem inv_clear_disp {s : State} (h : Inv s) : Inv { s with disp := none } :=
  { h with
    dispIdle := fun _ => rfl
    dispSet := nofun }

/-- The status of the finished sets matters to no clause. -/
theorem inv_set_allOk {s : State} {d : DispRun} {allOk : Bool} (h : Inv s) (hbusy : s.cc.st ≠ .idle)
    (hd : s.disp = some d) : Inv { s with disp := some ⟨d.pending, allOk⟩ } :=
  { h with
    dispIdle := fun hfree => absurd (busy_eq_false.1 hfree).1 hbusy
    dispSet := by rintro _ ⟨⟩; exact h.dispSet d hd }

/-- A get is no part of a display operation. -/
theorem disp_eq_none_of_get {s : State} (h : Inv s) (hk : s.cc.kind = .get) : s.disp = none := by
  cases hd : s.disp with
  | none => rfl
  | some d => cases hk.symm.trans (h.dispSet d hd).1

theorem inv_endGet {s : State} {ok : Bool} (h : Inv s) (hk : s.cc.kind = .get) : Inv (endGet ok s) := by
  have hgot : (s.cc.got.take (ccWidth s)).length ≤ 255 :=
    (List.length_take_le' _ _).trans (h.gotLen.le.trans (pcap_le _))
  have hd : s.disp = none := disp_eq_none_of_get h hk
  cases ok with
  | true => exact inv_goto_idle (inv_finish h (by rintro _ ⟨⟩; exact hgot)) fun _ => hd
  | false => exact inv_goto_idle (inv_finish h nofun) fun _ => hd

theorem inv_endSet {s : State} {ok : Bool} (h : Inv s) (hbusy : s.cc.st ≠ .idle) : Inv (endSet ok s) := by
  unfold endSet
  cases hd : s.disp with
  | none => exact inv_goto_idle (inv_finish h nofun) fun _ => hd
  | some d =>
    obtain ⟨pending, allOk⟩ := d
    cases pending with
    | nil => exact inv_goto_idle (inv_clear_disp (inv_finish h nofun)) fun _ => rfl
    | cons r rest => exact inv_goto_idle (inv_set_allOk h hbusy hd) nofun

theorem inv_stepEnd {s : State} {ok : Bool} (h : Inv s) (hbusy : s.cc.st ≠ .idle) : Inv (stepEnd ok s) := by
  unfold stepEnd
  cases hk : s.cc.kind with
  | get => exact inv_endGet h hk
  | set => exact inv_endSet h hbusy

/-! ### The whole step -/

/-- Settles O50: every case of `step` is an operation that keeps the invariant, from the state that has sampled the input
lines and taken the start pulse. -/
theorem stepKeepsInv : Obligations.StepKeepsInv := by
  intro s t h hstep
  have hs : Inv (takeStart (sample s)) := inv_takeStart (inv_sample h)
  cases step_next_cases hstep with
  | reset => exact inv_applyReset (inv_sample h)
  | rest => exact inv_stepAtRest (inv_sample h)
  | op _ _ _ i _ _ ht => exact inv_hostStep hs ht
  | reserved => exact inv_raise hs
  | nextSet _ _ r rest allOk hd =>
    obtain ⟨_, hm, hknown⟩ := h.dispSet _ hd
    exact inv_beginDispSet hs hm hknown
  | write => exact inv_stepWrite hs
  | read _ hst hp => exact inv_stepRead hs hst hp
  | await _ hst => exact inv_stepAwait hs hst
  | poll _ hst => exact inv_stepPoll hs hst
  | reject _ hst =>
    have hp : s.cc.phase = .rd := h.phaseRd (by simp [hst]) (by simp [hst])
    exact inv_goto hs (by simp [hst]) (by simp [hst]) (by decide) hp (by simp [hst, SeqState.inGet]) nofun
  | accept _ hst => exact inv_accept hs hst
  | retryInner _ hst => exact inv_stepRetryInner hs hst
  | retryOuter _ hst => exact inv_stepRetryOuter hs hst
  | success _ hst | failed _ hst => exact inv_stepEnd hs (by simp [hst])

end Sys2Proof.Machine

namespace Sys2Proof.Machine

/-! ### Who writes the configuration, the request registers and `MSGID` (10_state R21, R23, R33) -/

/-- What the host set up, and the counter of its calls, are as before. -/
structure SameHostSide (s t : State) : Prop where
  cfg   : t.cfg = s.cfg
  req   : t.req = s.req
  msgid : t.msgid = s.msgid

theorem stepWrite_sameHostSide (s : State) : SameHostSide s (stepWrite s) := by
  constructor <;> simp [stepWrite]

theorem stepRead_sameHostSide (s : State) : SameHostSide s (stepRead s) := by
  constructor <;> simp [stepRead]

theorem stepPoll_sameHostSide (s : State) : SameHostSide s (stepPoll s) := by
  constructor <;> simp [stepPoll]

theorem stepAwait_sameHostSide (s : State) : SameHostSide s (stepAwait s) := by
  constructor <;> simp [stepAwait]

theorem goto_sameHostSide (st : SeqState) (s : State) : SameHostSide s (goto st s) := by
  constructor <;> simp

theorem accept_sameHostSide (st : SeqState) (s : State) : SameHostSide s (goto st (takeResponse s)) := by
  constructor <;> simp

theorem stepRetryInner_sameHostSide (s : State) : SameHostSide s (stepRetryInner s) := by
  unfold stepRetryInner
  split
  · exact ⟨rfl, rfl, rfl⟩
  · cases s.cc.kind <;> exact ⟨rfl, rfl, rfl⟩

theorem stepRetryOuter_sameHostSide (s : State) : SameHostSide s (stepRetryOuter s) := by
  unfold stepRetryOuter
  split <;> exact ⟨rfl, rfl, rfl⟩

theorem endGet_sameHostSide (ok : Bool) (s : State) : SameHostSide s (endGet ok s) := by
  cases ok <;> exact ⟨rfl, rfl, rfl⟩

theorem endSet_sameHostSide (ok : Bool) (s : State) : SameHostSide s (endSet ok s) := by
  unfold endSet
  rcases s.disp with _ | ⟨_ | _, _⟩ <;> exact ⟨rfl, rfl, rfl⟩

theorem stepEnd_sameHostSide (ok : Bool) (s : State) : SameHostSide s (stepEnd ok s) := by
  unfold stepEnd
  cases s.cc.kind with
  | get => exact endGet_sameHostSide ok s
  | set => exact endSet_sameHostSide ok s

/-- The steps of the sequencer start from the state that has sampled the input lines and taken the start pulse. -/
theorem SameHostSide.of_sampled {s t : State} (h : SameHostSide (takeStart (sample s)) t) : SameHostSide s t :=
  ⟨h.cfg, h.req, h.msgid⟩

/-- The sequencer, in a transaction under way, leaves the host's side alone. -/
theorem sequencer_sameHostSide {s t : State} (h : StepCase s t) (hr : (linesNow s).reset = false)
    (hst : s.cc.st ≠ .idle) : SameHostSide s t := by
  cases h with
  | reset hreset => cases hr.symm.trans hreset
  | rest _ hb | op _ hb | reserved _ hb => exact absurd (busy_eq_false.1 hb).1 hst
  | nextSet _ hidle => exact absurd hidle hst
  | write => exact (stepWrite_sameHostSide _).of_sampled
  | read => exact (stepRead_sameHostSide _).of_sampled
  | await => exact (stepAwait_sameHostSide _).of_sampled
  | poll => exact (stepPoll_sameHostSide _).of_sampled
  | reject => exact (goto_sameHostSide _ _).of_sampled
  | accept => exact (accept_sameHostSide _ _).of_sampled
  | retryInner => exact (stepRetryInner_sameHostSide _).of_sampled
  | retryOuter => exact (stepRetryOuter_sameHostSide _).of_sampled
  | success | failed => exact (stepEnd_sameHostSide _ _).of_sampled

/-- The five steps from `Idle` (42_command_channel R135). -/
theorem idle_step_cases {s t : State} (h : StepCase s t) (hr : (linesNow s).reset = false) (hst : s.cc.st = .idle) :
    (s.busy = false ∧ s.start = false ∧ t = stepAtRest (sample s)) ∨
    (s.busy = false ∧ s.start = true ∧ ∃ i, encode i = [s.req.op] ∧ HostStep i (takeStart (sample s)) t) ∨
    (s.busy = false ∧ s.start = true ∧ t = raise .errOp (takeStart (sample s))) ∨
    (s.busy = true ∧ ∃ r rest allOk, s.disp = some ⟨r :: rest, allOk⟩ ∧
      t = beginDispSet r { takeStart (sample s) with disp := some ⟨rest, allOk⟩ }) := by
  cases h with
  | reset hreset => cases hr.symm.trans hreset
  | rest _ hb hs => exact .inl ⟨hb, hs, rfl⟩
  | op _ hb hs i _ hi ht => exact .inr (.inl ⟨hb, hs, i, hi, ht⟩)
  | reserved _ hb hs => exact .inr (.inr (.inl ⟨hb, hs, rfl⟩))
  | nextSet _ _ r rest allOk hd =>
    have hb : s.busy = true := by simp [State.busy, hd]
    exact .inr (.inr (.inr ⟨hb, r, rest, allOk, hd, rfl⟩))
  | write _ h' | read _ h' | await _ h' | poll _ h' | reject _ h' | accept _ h' | retryInner _ h' | retryOuter _ h'
  | success _ h' | failed _ h' => cases hst.symm.trans h'

/-- No host operation writes the configuration or a request register. -/
theorem HostStep.cfg_req {i : Instr} {s t : State} (h : HostStep i s t) : t.cfg = s.cfg ∧ t.req = s.req := by
  cases h <;> exact ⟨rfl, rfl⟩

@[simp] theorem stepAtRest_cfg (s : State) : (stepAtRest s).cfg = s.cfg := by
  unfold stepAtRest; cases s.host <;> rfl

@[simp] theorem stepAtRest_msgid (s : State) : (stepAtRest s).msgid = s.msgid := by
  unfold stepAtRest; cases s.host <;> rfl

/-- No step writes the configuration, and only the host, at a block at rest, writes a request register. -/
theorem step_cfg_req {s t : State} (h : StepCase s t) (hr : (linesNow s).reset = false) :
    t.cfg = s.cfg ∧ (t.req = s.req ∨ (s.busy = false ∧ s.start = false ∧ t = stepAtRest (sample s))) := by
  by_cases hst : s.cc.st = .idle
  · rcases idle_step_cases h hr hst with
      ⟨hb, hs, rfl⟩ | ⟨_, _, i, _, ht⟩ | ⟨_, _, rfl⟩ | ⟨_, r, rest, allOk, _, rfl⟩
    · exact ⟨stepAtRest_cfg _, .inr ⟨hb, hs, rfl⟩⟩
    · exact ⟨ht.cfg_req.1, .inl ht.cfg_req.2⟩
    · exact ⟨rfl, .inl rfl⟩
    · exact ⟨rfl, .inl rfl⟩
  · have hsame := sequencer_sameHostSide h hr hst
    exact ⟨hsame.cfg, .inl hsame.req⟩

/-- At rest with no start pending the host may move, and nobody else does. -/
theorem step_at_rest {s t : State} (h : StepCase s t) (hr : (linesNow s).reset = false) (hb : s.busy = false)
    (hs : s.start = false) : t = stepAtRest (sample s) := by
  rcases idle_step_cases h hr (busy_eq_false.1 hb).1 with ⟨_, _, ht⟩ | ⟨_, hs', _⟩ | ⟨_, hs', _⟩ | ⟨hb', _⟩
  · exact ht
  · cases hs.symm.trans hs'
  · cases hs.symm.trans hs'
  · cases hb.symm.trans hb'

/-- Settles O45: the configuration by `step_cfg_req` and `applyReset_cfg`; a write of the request registers is a step at
rest, which writes them only from the host's next request. -/
theorem onlyTheHostWritesRequests : Obligations.OnlyTheHostWritesRequests := by
  intro s t hstep
  have h := step_next_cases hstep
  refine ⟨?_, fun hr => ?_, fun hr hb hs => ?_⟩
  · cases hr : (linesNow s).reset with
    | false => exact (step_cfg_req h hr).1
    | true =>
      rw [step, if_pos hr] at hstep
      cases hstep
      rfl
  · rcases (step_cfg_req h hr).2 with hreq | ⟨hb, hs, rfl⟩
    · exact .inl hreq
    · cases hh : s.host with
      | nil => left; simp [stepAtRest, hh]
      | cons r rs => exact .inr ⟨hb, hs, r, rs, rfl, by simp [stepAtRest, hh]⟩
  · rw [step_at_rest h hr hb hs]
    cases hh : s.host <;> simp [stepAtRest, hh, hs]

/-! ### `MSGID` (10_state R33) -/

/-- `MSGID` after an accepted operation: it moves where the descriptor counts, and nowhere else. -/
theorem nextMsgid_ne {s : State} {ep : BitVec 7} (h : nextMsgid s ep ≠ s.msgid) :
    nextMsgid s ep = s.msgid + 1 ∧ ∃ e, endpoint? s.cfg ep = some e ∧ e.msgid = true := by
  cases he : endpoint? s.cfg ep with
  | none => simp [nextMsgid, he] at h
  | some e =>
    cases hm : e.msgid with
    | false => simp [nextMsgid, he, hm] at h
    | true => simp [nextMsgid, he, hm]

theorem nextMsgid_of_sevenSegment {s : State} {ep : BitVec 7} (hm : s.cfg.moduleType = .sevenSegment) :
    nextMsgid s ep = s.msgid := by
  by_contra h
  obtain ⟨_, e, he, hcounts⟩ := nextMsgid_ne h
  cases hcounts.symm.trans (msgid_false_of_sevenSegment hm he)

/-- A set of a display operation leaves `MSGID`. -/
theorem beginDispSet_msgid {s : State} {r : SetReq} {d : Option DispRun} (hm : s.cfg.moduleType = .sevenSegment) :
    (beginDispSet r { s with disp := d }).msgid = s.msgid :=
  nextMsgid_of_sevenSegment (s := { s with disp := d }) hm

/-- A host operation that moves `MSGID` is an accepted `CC.SET` or `CC.GET` on an endpoint that counts. -/
theorem HostStep.msgid_ne {i : Instr} {s t : State} (h : HostStep i s t) (hne : t.msgid ≠ s.msgid) :
    (i = .ccSet ∨ i = .ccGet) ∧ t.cc.st = .sending ∧ t.msgid = s.msgid + 1 ∧
      ∃ e, endpoint? s.cfg s.req.ep = some e ∧ e.msgid = true := by
  cases h with
  | ends => exact absurd rfl hne
  | set _ hi => exact ⟨.inl hi, rfl, nextMsgid_ne (s := { s with disp := none }) hne⟩
  | get _ hi => exact ⟨.inr hi, rfl, nextMsgid_ne (s := { s with disp := none }) hne⟩
  | display rv d _ _ hm => exact absurd (beginDispSet_msgid (s := putResults rv (.val d.toList) s) hm) hne

/-- Settles O46: the sequencer and a set of a display operation leave `MSGID`, so a step that moves it is a host operation,
which `HostStep.msgid_ne` names. -/
theorem messageIdCountsAcceptedCalls : Obligations.MessageIdCountsAcceptedCalls := by
  intro s t hinv hr hstep hne
  have h := step_next_cases hstep
  have hst : s.cc.st = .idle := by
    by_contra hst
    exact hne (sequencer_sameHostSide h hr hst).msgid
  rcases idle_step_cases h hr hst with
    ⟨_, _, rfl⟩ | ⟨hb, hs, i, hi, ht⟩ | ⟨_, _, rfl⟩ | ⟨_, r, rest, allOk, hd, rfl⟩
  · exact absurd (stepAtRest_msgid _) hne
  · obtain ⟨hcall, hsending, hcount, hep⟩ := ht.msgid_ne hne
    refine ⟨hb, hs, ?_, hsending, hcount, hep⟩
    rcases hcall with rfl | rfl
    · exact .inl (List.head_eq_of_cons_eq hi).symm
    · exact .inr (List.head_eq_of_cons_eq hi).symm
  · exact absurd rfl hne
  · obtain ⟨_, hm, _⟩ := hinv.dispSet _ hd
    exact absurd (beginDispSet_msgid (s := takeStart (sample s)) hm) hne

end Sys2Proof.Machine

namespace Sys2Proof.Machine

/-! ### What an operation's results depend on (10_state R21, 30_encoding R81)

An `FC` or `VE` operation ends in `finish` with results that it computes from its operands and the configuration, or draws
from the free values. It keeps no earlier result, so nothing else of the state shows in the results. -/

theorem finish_results_agree {s s' : State} {st : Status} {rv : Draw Word} {dout : Draw (List Byte)}
    (hf : s'.free = s.free) (hrv : rv ≠ .keep) (hdout : dout ≠ .keep) :
    (finish st rv dout s').res = (finish st rv dout s).res := by
  have hrv' : drawRv s'.free s'.res.rv rv = drawRv s.free s.res.rv rv := by
    cases rv with
    | val | any => rw [hf]; rfl
    | keep => exact absurd rfl hrv
  have hdout' : drawDout s'.free s'.res.dout dout = drawDout s.free s.res.dout dout ∧
      drawDolen s'.free s'.res.dolen dout = drawDolen s.free s.res.dolen dout := by
    cases dout with
    | val | any => rw [hf]; exact ⟨rfl, rfl⟩
    | keep => exact absurd rfl hdout
  simp [hrv', hdout']

theorem raise_results_agree {s s' : State} {st : Status} (hf : s'.free = s.free) :
    (raise st s').res = (raise st s).res :=
  finish_results_agree hf nofun nofun

/-- The same computation `r`, delivered by `g`, which keeps no earlier result. -/
theorem finishExcept_results_agree {α : Type} {s s' : State} {r : Except Status α}
    {g : α → Draw Word × Draw (List Byte)} (hf : s'.free = s.free)
    (hg : ∀ a, (g a).1 ≠ .keep ∧ (g a).2 ≠ .keep) :
    (finishExcept (r.map g) s').res = (finishExcept (r.map g) s).res := by
  cases r with
  | error st => exact raise_results_agree hf
  | ok a => exact finish_results_agree hf (hg a).1 (hg a).2

theorem finishShown_results_agree {α : Type} {s s' : State} {r : Except Status α} {g : α → Shown}
    (hf : s'.free = s.free) (hg : ∀ a, (g a).1 ≠ .keep) :
    (finishShown (r.map g) s').res = (finishShown (r.map g) s).res := by
  cases r with
  | error st => exact raise_results_agree hf
  | ok a => exact finish_results_agree hf (hg a) nofun

theorem dinBytes_congr {s s' : State} (hl : s'.req.dlen = s.req.dlen)
    (hd : ∀ a, a < s.req.dlen.toNat → s'.req.din.read a = s.req.din.read a) : dinBytes s' = dinBytes s := by
  unfold dinBytes Memory.bytes
  rw [hl]
  exact List.map_congr_left fun a ha => hd a (List.mem_range.1 ha)

/-- The two states of `Obligations.UnlistedOperandsAreIgnored`, but for the operands: neither busy, and the same
configuration and free values. -/
structure AgreeOutsideOperands (s s' : State) : Prop where
  busy  : s.busy = false
  busy' : s'.busy = false
  cfg   : s'.cfg = s.cfg
  free  : s'.free = s.free

/-- The instruction gives the same results in both states. -/
def SameResults (i : Instr) (s s' : State) : Prop :=
  ∃ t t', exec i s = .next t ∧ exec i s' = .next t' ∧ t'.res = t.res

section
variable {s s' : State} {i : Instr} (h : AgreeOutsideOperands s s')
include h

/-- It is enough that the meaning `f` of the operation gives the same results. -/
theorem sameResults_of_meaning {f : State → State} (hexec : ∀ u, exec i u = hostOp f u)
    (hf : (f s').res = (f s).res) : SameResults i s s' :=
  ⟨f s, f s', (hexec s).trans (hostOp_of_free h.busy), (hexec s').trans (hostOp_of_free h.busy'), hf⟩

theorem sameResults_poll : SameResults .fcPoll s s' := by
  refine sameResults_of_meaning h (fun _ => rfl) ?_
  rw [h.cfg]
  exact finish_results_agree h.free nofun nofun

/-- The operations with the operand `x[0]`: out of range they `raise`, which is one more `finish`. -/
theorem sameResults_x0 (hi : i ∈ [Instr.veDig, .veChr, .veI2d]) (h0 : s'.req.x0 = s.req.x0) : SameResults i s s' := by
  simp only [List.mem_cons, List.not_mem_nil, or_false] at hi
  rcases hi with rfl | rfl | rfl <;> refine sameResults_of_meaning h (fun _ => rfl) ?_ <;> rw [h.cfg, h0] <;>
    dsimp only <;> split <;> exact finish_results_agree h.free nofun nofun

theorem sameResults_x0_x1 (hi : i ∈ [Instr.veInt, .veTmp]) (h0 : s'.req.x0 = s.req.x0) (h1 : s'.req.x1 = s.req.x1) :
    SameResults i s s' := by
  simp only [List.mem_cons, List.not_mem_nil, or_false] at hi
  rcases hi with rfl | rfl <;> refine sameResults_of_meaning h (fun _ => rfl) ?_
  · simp only [showInt, h.cfg, h0, h1]
    exact finishShown_results_agree h.free nofun
  · simp only [showTmp, h.cfg, h0, h1]
    exact finishShown_results_agree h.free nofun

theorem sameResults_fix (h0 : s'.req.x0 = s.req.x0) (h1 : s'.req.x1 = s.req.x1) (h2 : s'.req.x2 = s.req.x2) :
    SameResults .veFix s s' := by
  refine sameResults_of_meaning h (fun _ => rfl) ?_
  simp only [showFix, h.cfg, h0, h1, h2]
  exact finishShown_results_agree h.free nofun

theorem sameResults_x0_to_x3 (hi : i ∈ [Instr.veClk, .veDur]) (h0 : s'.req.x0 = s.req.x0) (h1 : s'.req.x1 = s.req.x1)
    (h2 : s'.req.x2 = s.req.x2) (h3 : s'.req.x3 = s.req.x3) : SameResults i s s' := by
  simp only [List.mem_cons, List.not_mem_nil, or_false] at hi
  rcases hi with rfl | rfl <;> refine sameResults_of_meaning h (fun _ => rfl) ?_
  · simp only [showClk, h.cfg, h0, h1, h2, h3]
    exact finishShown_results_agree h.free nofun
  · simp only [showDur, h.cfg, h0, h1, h2, h3]
    exact finishShown_results_agree h.free nofun

/-- The operations with the operand `DIN`. -/
theorem sameResults_din (hi : i ∈ [Instr.fcCrc8, .fcDecode, .fcCheck, .veClz, .veStr]) (hl : s'.req.dlen = s.req.dlen)
    (hd : dinBytes s' = dinBytes s) : SameResults i s s' := by
  simp only [List.mem_cons, List.not_mem_nil, or_false] at hi
  rcases hi with rfl | rfl | rfl | rfl | rfl <;> refine sameResults_of_meaning h (fun _ => rfl) ?_
  · rw [h.cfg, hd]
    exact finish_results_agree h.free nofun nofun
  · rw [h.cfg, hd]
    exact finishExcept_results_agree h.free fun _ => ⟨nofun, nofun⟩
  · rw [h.cfg, hd]
    exact finishExcept_results_agree h.free fun _ => ⟨nofun, nofun⟩
  · rw [h.cfg, hl, hd]
    split
    · exact raise_results_agree h.free
    · exact finish_results_agree h.free nofun nofun
  · rw [showStr, h.cfg, hd]
    exact finish_results_agree h.free nofun nofun

theorem sameResults_encode (h0 : s'.req.x0 = s.req.x0) (hep : s'.req.ep = s.req.ep)
    (hd : dinBytes s' = dinBytes s) : SameResults .fcEncode s s' := by
  refine sameResults_of_meaning h (fun _ => rfl) ?_
  rw [h.cfg, h0, hep, hd]
  exact finishExcept_results_agree h.free fun _ => ⟨nofun, nofun⟩

end

/-- Settles O23: the seven groups of operations by the request registers that 30_encoding R81 lists for them. -/
theorem unlistedOperandsAreIgnored : Obligations.UnlistedOperandsAreIgnored := by
  intro s s' i hb hb' hcfg hfree hi
  have h : AgreeOutsideOperands s s' := ⟨hb, hb', hcfg, hfree⟩
  rcases hi with rfl | ⟨hi, h0⟩ | ⟨hi, h0, h1⟩ | ⟨rfl, h0, h1, h2⟩ | ⟨hi, h0, h1, h2, h3⟩ | ⟨hi, hl, hd⟩ |
    ⟨rfl, h0, hep, hl, hd⟩
  · exact sameResults_poll h
  · exact sameResults_x0 h hi h0
  · exact sameResults_x0_x1 h hi h0 h1
  · exact sameResults_fix h h0 h1 h2
  · exact sameResults_x0_to_x3 h hi h0 h1 h2 h3
  · exact sameResults_din h hi hl (dinBytes_congr hl hd)
  · exact sameResults_encode h h0 hep (dinBytes_congr hl hd)

end Sys2Proof.Machine

namespace Sys2Proof.Laws

/-- The family of word forms as one statement over all instructions (30_encoding R70, R76, R80). -/
theorem wordForm (i : Instr) : WordForm.Statement i := by
  cases i
  exacts [WordForm.fcCrc8, WordForm.fcEncode, WordForm.fcDecode, WordForm.fcPoll, WordForm.fcCheck, WordForm.ccSet,
    WordForm.ccGet, WordForm.veDig, WordForm.veChr, WordForm.veI2d, WordForm.veClz, WordForm.veInt, WordForm.veFix,
    WordForm.veStr, WordForm.veClk, WordForm.veDur, WordForm.veTmp, WordForm.dispInt, WordForm.dispFix,
    WordForm.dispStr, WordForm.dispClk, WordForm.dispDur, WordForm.dispTmp, WordForm.poll, WordForm.rdDisplayValue,
    WordForm.rdBrightness, WordForm.rdColon, WordForm.rdApostrophe, WordForm.wrDisplayValue, WordForm.wrBrightness,
    WordForm.wrColon, WordForm.wrApostrophe, WordForm.rdColor, WordForm.rdRawPassthrough, WordForm.rdLine,
    WordForm.rdCustomCharacter, WordForm.wrColor, WordForm.wrRawPassthrough, WordForm.wrLine,
    WordForm.wrCustomCharacter]

end Sys2Proof.Laws

namespace Sys2Proof.Machine

/-! ### Decode and encode (30_encoding R76, R80)

Every word is one byte of `OP` or the sync marker and a command byte. Either way the table lookup finds the row whose word
it is, and whatever a lookup finds has the word it was found by. -/

/-- An instruction exists on the block when its row is of either module or of the bound one (30_encoding R76). -/
theorem wf_iff_boundTo {m : ModuleType} {i : Instr} : i.wf m = true ↔ i.boundTo = none ∨ i.boundTo = some m := by
  unfold Instr.wf
  cases i.boundTo <;> simp

/-- A host operation exists on a block of either module type (30_encoding R80). -/
theorem wf_of_encode_singleton {i : Instr} {op : Byte} (m : ModuleType) (h : encode i = [op]) : i.wf m = true := by
  rcases Laws.wordForm i with ⟨_, _, _, hb⟩ | ⟨_, h2, _⟩
  · exact wf_iff_boundTo.2 (.inl hb)
  · cases h.symm.trans h2

/-- The converse of `decodeOp_ok`: a word of one byte stands in the table of operation codes. -/
theorem decodeOp_of_encode {i : Instr} {op : Byte} (h : encode i = [op]) : decodeOp op = .ok i := by
  cases i <;> cases h <;> rfl

/-- The converse of `decodeHead_ok`: a word of two bytes stands in the frame table of each module type that has its row. -/
theorem decodeHead_of_encode {m : ModuleType} {i : Instr} {b0 b1 : Byte} (h : encode i = [b0, b1])
    (hwf : i.wf m = true) : decodeHead m b0 b1 = .ok i := by
  rcases wf_iff_boundTo.1 hwf with hb | hb
  · cases i <;> cases hb <;> cases h
    cases m <;> rfl
  · cases i <;> cases hb <;> cases h <;> rfl

theorem decode_encode {m : ModuleType} {i : Instr} (hwf : i.wf m = true) : decode m (encode i) = .ok i := by
  rcases Laws.wordForm i with ⟨op, h, _⟩ | ⟨b, h, _⟩
  · rw [h]
    exact decodeOp_of_encode h
  · rw [h]
    exact decodeHead_of_encode h hwf

/-- The decoder looks at no byte of a frame after the second (30_encoding R76). -/
theorem decode_encode_append {m : ModuleType} {i : Instr} (hwf : i.wf m = true) (h2 : (encode i).length = 2)
    (rest : List Byte) : decode m (encode i ++ rest) = .ok i := by
  obtain ⟨b0, b1, h⟩ := List.length_eq_two.1 h2
  rw [h]
  exact decodeHead_of_encode h hwf

theorem encode_prefix_of_decode {m : ModuleType} {i : Instr} :
    ∀ {bs : List Byte}, decode m bs = .ok i → i.wf m = true ∧ encode i <+: bs
  | [], hd => nomatch hd
  | [op], hd => by
    have henc : encode i = [op] := decodeOp_ok hd
    exact ⟨wf_of_encode_singleton m henc, henc ▸ List.prefix_rfl⟩
  | b0 :: b1 :: rest, hd => by
    obtain ⟨_, henc, hwf⟩ := decodeHead_ok hd
    exact ⟨hwf, henc ▸ List.prefix_append [b0, b1] rest⟩

/-- Settles O2: the round trip by the two forms of a word, the converse by the three forms of what is decoded. -/
theorem decodeAndEncodeAgree : Obligations.DecodeAndEncodeAgree :=
  ⟨fun _ _ rest hwf => ⟨decode_encode hwf, fun h2 => decode_encode_append hwf h2 rest⟩,
    fun _ _ _ hd => encode_prefix_of_decode hd⟩

/-- Settles O1: eight of the words are those of their instructions, and the last two stand in no table. -/
theorem listedWordsDecode : Obligations.ListedWordsDecode :=
  ⟨decode_encode (i := .fcCrc8) rfl, decode_encode (i := .ccSet) rfl, decode_encode (i := .veTmp) rfl,
    decode_encode (i := .dispTmp) rfl, decode_encode (i := .poll) rfl,
    decode_encode_append (i := .wrColon) rfl rfl [0x00],
    decode_encode_append (i := .wrLine) rfl rfl [0x01, 0x48],
    decode_encode (i := .rdRawPassthrough) rfl, rfl, rfl⟩

/-! ### The frames about to be sent (30_encoding R76, R78) -/

/-- A frame of `N` bytes that begins with a row of the frame opcode map for the bound module. -/
def ListedFrame (c : Config) (f : List Byte) : Prop :=
  f.length = c.n ∧
    ∃ i, decode c.moduleType f = .ok i ∧ i.wf c.moduleType = true ∧ encode i <+: f ∧ (encode i).length = 2

/-- What makes an encoded frame a listed one: its payload fits and its command byte is in the map. -/
theorem listedFrame_frameOf {c : Config} {w : Bool} {ep : BitVec 7} {pl : List Byte} (hc : c.wf = true)
    (hpl : pl.length ≤ c.pcap) (hrow : ∃ i, decodeHead c.moduleType syncByte (cmdByte w ep) = .ok i) :
    ListedFrame c (frameOf c w ep pl) := by
  obtain ⟨i, hi⟩ := hrow
  have hd : decode c.moduleType (frameOf c w ep pl) = .ok i := by
    rw [decode_frameOf, sync_eq hc]
    exact hi
  obtain ⟨hwf, hpre⟩ := encode_prefix_of_decode hd
  obtain ⟨_, henc, _⟩ := decodeHead_ok hi
  exact ⟨length_frameOf (three_le_n hc) hpl, i, hd, hwf, hpre, by rw [henc]; rfl⟩

/-- Every endpoint of the bound module has a READ row and a WRITE row. -/
theorem decodeHead_of_endpoint {c : Config} {ep : BitVec 7} (w : Bool) (he : (endpoint? c ep).isSome = true) :
    ∃ i, decodeHead c.moduleType syncByte (cmdByte w ep) = .ok i := by
  rcases endpoint?_code he with rfl | rfl | rfl | rfl <;> cases c.moduleType <;> cases w <;> exact ⟨_, rfl⟩

theorem fetchBytes_write {s : State} (hst : s.cc.st = .sending) (hp : s.cc.phase = .wr) :
    fetchBytes s = frameOf s.cfg true s.cc.ep (writePayload s) := by
  simp only [fetchBytes, hst, hp]

theorem fetchBytes_read {s : State} (hst : s.cc.st = .sending) (hp : s.cc.phase = .rd) :
    fetchBytes s = frameOf s.cfg false s.cc.ep (readPayload s) := by
  simp only [fetchBytes, hst, hp]

theorem fetchBytes_poll {s : State} (hst : s.cc.st = .polling) : fetchBytes s = pollFrame s.cfg := by
  simp only [fetchBytes, hst]

/-- The poll frame is a row of both module types (30_encoding R74, R76). -/
theorem listedFrame_pollFrame {c : Config} (hc : c.wf = true) : ListedFrame c (pollFrame c) :=
  listedFrame_frameOf hc (Nat.zero_le _) ⟨.poll, by cases c.moduleType <;> rfl⟩

/-- A WRITE frame or a READ request of a transaction under way is listed, since its endpoint is. -/
theorem listedFrame_of_sending {s : State} (h : Inv s) (hst : s.cc.st = .sending) :
    ListedFrame s.cfg (fetchBytes s) := by
  have he := h.epKnown (by simp [hst])
  cases hp : s.cc.phase with
  | wr =>
    rw [fetchBytes_write hst hp]
    exact listedFrame_frameOf h.cfgWf (length_writePayload_le h) (decodeHead_of_endpoint true he)
  | rd =>
    rw [fetchBytes_read hst hp]
    exact listedFrame_frameOf h.cfgWf (length_readPayload_le h.cfgWf) (decodeHead_of_endpoint false he)

/-- Settles O6: in `Sending` by the endpoint of the transaction, in `Polling` the frame is the poll frame. -/
theorem onlyListedFramesAreSent : Obligations.OnlyListedFramesAreSent := by
  intro s h hst
  rcases hst with hst | hst
  · exact listedFrame_of_sending h hst
  · have hpoll := listedFrame_pollFrame h.cfgWf
    rwa [← fetchBytes_poll hst] at hpoll

end Sys2Proof.Machine

namespace Sys2Proof.Machine

/-! ### The trailer and the checksum (40_frame_codec R102, R106, R108) -/

/-- A frame read as its body and its trailer: the form in which the checksum speaks of it. -/
theorem trailerOk_append {c : Config} {body : List Byte} {b : Byte} (hn : (body ++ [b]).length = c.n) :
    trailerOk c (body ++ [b]) = true ↔ crc8 c body = b := by
  have hbody : c.n - 1 = body.length := by simp [← hn]
  simp [trailerOk, hbody]

theorem exists_body_trailer {f : List Byte} (hf : f ≠ []) : ∃ body b, f = body ++ [b] :=
  ⟨_, _, (List.dropLast_append_getLast hf).symm⟩

/-- The register holds the checksum after the data, so the next table index is zero. -/
theorem crc8_append_crc8 {c : Config} (hx : c.crcXorOut = 0) (bs : List Byte) : crc8 c (bs ++ [crc8 c bs]) = 0 := by
  simp [crc8_append, hx, crcTab_zero]

/-- Only the checksum itself, as the last byte, makes the checksum zero. -/
theorem crc8_append_eq_zero {c : Config} (hp : c.crcPoly = 0x07) (hx : c.crcXorOut = 0) {bs : List Byte} {b : Byte} :
    crc8 c (bs ++ [b]) = 0 ↔ crc8 c bs = b := by
  refine ⟨fun h => ?_, fun h => h ▸ crc8_append_crc8 hx bs⟩
  have h0 : crcTab 0x07 (crc8 c bs ^^^ b) = 0 := by simpa [crc8_append, hp, hx] using h
  exact BitVec.xor_eq_zero_iff.1 (crcTab_eq_zero _ h0)

/-- Settles O4: `crc8_append_crc8`, and for a frame read as body and trailer both sides say that the trailer is the
checksum of the body. -/
theorem checksumResidueIsZero : Obligations.ChecksumResidueIsZero := by
  intro c hp hx
  refine ⟨crc8_append_crc8 hx, fun f hlen h1 => ?_⟩
  obtain ⟨body, b, rfl⟩ := exists_body_trailer (f := f) (by rintro rfl; simp at hlen; omega)
  exact (trailerOk_append hlen).trans (crc8_append_eq_zero hp hx).symm

/-- One more byte keeps apart what differs, since the table of 0x07 is injective. -/
theorem crc8_append_inj {c : Config} (hp : c.crcPoly = 0x07) {as bs : List Byte} {x y : Byte}
    (h : crc8 c (as ++ [x]) = crc8 c (bs ++ [y])) : crc8 c as ^^^ x = crc8 c bs ^^^ y := by
  rw [crc8_append, crc8_append, hp, BitVec.xor_left_inj] at h
  have hreg := crcTab_injective h
  have hswap (r b : Byte) : r ^^^ c.crcXorOut ^^^ b = r ^^^ b ^^^ c.crcXorOut := by ac_rfl
  rwa [hswap, hswap, BitVec.xor_left_inj] at hreg

/-- Sequences that differ in one byte have different checksums. -/
theorem crc8_one_byte_inj {c : Config} (hp : c.crcPoly = 0x07) (as bs : List Byte) {x y : Byte}
    (h : crc8 c (as ++ x :: bs) = crc8 c (as ++ y :: bs)) : x = y := by
  induction bs using List.reverseRecOn with
  | nil => exact (BitVec.xor_right_inj _).1 (crc8_append_inj hp h)
  | append_singleton bs b ih =>
    refine ih ((BitVec.xor_left_inj b).1 (crc8_append_inj hp ?_))
    simpa using h

theorem crc8_set_ne {c : Config} (hp : c.crcPoly = 0x07) {bs : List Byte} {k : Nat} {b : Byte} (hk : k < bs.length)
    (hb : b ≠ bs[k]) : crc8 c (bs.set k b) ≠ crc8 c bs := by
  intro h
  have hbs : bs = bs.take k ++ bs[k] :: bs.drop (k + 1) := by simp
  rw [List.set_eq_take_append_cons_drop, if_pos hk] at h
  exact hb (crc8_one_byte_inj hp _ _ (h.trans (congrArg (crc8 c) hbs)))

/-- Settles O5: an altered byte of the body changes the checksum that the trailer is compared with, and an altered
trailer is no longer that checksum. -/
theorem oneAlteredByteIsDetected : Obligations.OneAlteredByteIsDetected := by
  intro c f k b hp hlen hk hok hb
  change f.length = c.n at hlen
  obtain ⟨body, t, rfl⟩ := exists_body_trailer (f := f) (by rintro rfl; simp at hk)
  have ht : crc8 c body = t := (trailerOk_append hlen).1 hok
  rw [← Bool.not_eq_true]
  rcases Nat.lt_or_ge k body.length with hin | hlast
  · have hne : b ≠ body[k] := by simpa [List.getElem?_append_left hin, hin] using hb
    rw [List.set_append_left _ _ hin, trailerOk_append (by simpa using hlen), ← ht]
    exact crc8_set_ne hp hin hne
  · obtain rfl : k = body.length := by simp at hk; omega
    rw [List.set_append_right _ _ hlast, Nat.sub_self, List.set_cons_zero,
      trailerOk_append (by simpa using hlen), ht]
    simpa using hb.symm

/-! ### Encode and decode (40_frame_codec R103, R105, R106) -/

theorem encodeFrame_of_le {c : Config} {pl : List Byte} (w : Bool) (ep : BitVec 7) (h : pl.length ≤ c.pcap) :
    encodeFrame c w ep pl = .ok (frameOf c w ep pl) :=
  if_neg (Nat.not_lt.2 h)

theorem encodeFrame_of_lt {c : Config} {pl : List Byte} (w : Bool) (ep : BitVec 7) (h : c.pcap < pl.length) :
    encodeFrame c w ep pl = .error .errCap :=
  if_pos h

theorem decodeFrame_of_length {c : Config} {f : List Byte} (h : f.length = c.n) :
    decodeFrame c f = .ok (f.getD 1 0, payloadOf c f) :=
  if_neg (not_not.2 h)

theorem decodeFrame_of_ne {c : Config} {f : List Byte} (h : f.length ≠ c.n) : decodeFrame c f = .error .errLen :=
  if_pos h

theorem crcOk_of_length {c : Config} {f : List Byte} (h : f.length = c.n) : crcOk c f = .ok (trailerOk c f) :=
  if_neg (not_not.2 h)

theorem crcOk_of_ne {c : Config} {f : List Byte} (h : f.length ≠ c.n) : crcOk c f = .error .errLen :=
  if_pos h

/-- Settles O3: the frame of a payload that fits has `N` bytes, so it is split and checked, and its command byte,
payload region and trailer are those it was built from. -/
theorem frameRoundTrip : Obligations.FrameRoundTrip := by
  intro c w ep pl hn hpl
  have hlen : (frameOf c w ep pl).length = c.n := length_frameOf hn hpl
  refine ⟨frameOf c w ep pl, encodeFrame_of_le w ep hpl, hlen, ?_, ?_⟩
  · rw [decodeFrame_of_length hlen, frameOf_getD_one, payloadOf_frameOf hpl, cmdByte_eq_or]
    rfl
  · rw [crcOk_of_length hlen, trailerOk_frameOf hn hpl]

/-! ### A host operation that ends in one step (60_exceptions R222, R228) -/

theorem onlyResults_finish (st : Status) (rv : Draw Word) (dout : Draw (List Byte)) (s : State) :
    OnlyResults s (finish st rv dout s) := by
  constructor <;> intros <;> rfl

section
variable {i : Instr} {s : State} {f : State → State} (hexec : ∀ u, exec i u = hostOp f u) (hb : s.busy = false)
include hexec hb

/-- An operation whose meaning `f` delivers results returns them. -/
theorem returns_of_meaning {rv : Draw Word} {dout : Draw (List Byte)} {p : State → Prop}
    (hf : f s = finish .ok rv dout s) (hp : p (finish .ok rv dout s)) : Returns i s p :=
  ⟨_, (hexec s).trans ((hostOp_of_free hb).trans (congrArg _ hf)), rfl, rfl, onlyResults_finish .ok rv dout s, hp⟩

/-- An operation whose meaning `f` raises an error raises it. -/
theorem raises_of_meaning {st : Status} (hf : f s = raise st s) : Raises i s st :=
  ⟨_, (hexec s).trans ((hostOp_of_free hb).trans (congrArg _ hf)), rfl, rfl, onlyResults_finish st .any .any s⟩

end

/-- Bytes that fit `DOUT` are delivered as they are (10_state R22). -/
theorem delivers_finish {bs : List Byte} (h : bs.length ≤ 255) (st : Status) (rv : Draw Word) (s : State) :
    Delivers (finish st rv (.val bs) s) bs :=
  ⟨Nat.mod_eq_of_lt (Nat.lt_succ_of_le h), bytes_ofBytes rfl⟩

theorem delivers_frame {c : Config} {f : List Byte} (h : f.length = c.n) (st : Status) (rv : Draw Word) (s : State) :
    (finish st rv (.val f) s).res.dolen = c.frameLen ∧ Delivers (finish st rv (.val f) s) f := by
  have hn : c.n = c.frameLen.toNat := rfl
  refine ⟨?_, delivers_finish (by omega) st rv s⟩
  simp [drawDolen, h, hn]

/-! ### The host operations of the frame codec -/

/-- Settles O8: the table is the shift iterated, and the meaning of `FC.CRC8` is one `finish` with the checksum. -/
theorem crcOperationReturnsChecksum : Obligations.CrcOperationReturnsChecksum := by
  refine ⟨fun _ => decode_encode (i := .fcCrc8) rfl, fun _ => crcPoly_eq, fun _ _ => rfl, fun s hb => ?_⟩
  refine returns_of_meaning (rv := .val (wordOfByte (crc8 s.cfg (dinBytes s)))) (dout := .any) (fun _ => rfl) hb ?_ ?_
  · rfl
  · rfl

/-- The first `N-1` bytes of an encoded frame, written out (40_frame_codec R103). -/
theorem frameBody_eq {c : Config} (hs : c.sync = 0x80) (w : Bool) (ep : BitVec 7) (pl : List Byte) :
    frameBody c w ep pl = 0x80 :: ((if w then 0x80 else 0x00) ||| ep.setWidth 8) ::
      (pl ++ List.replicate (c.frameLen.toNat - 3 - pl.length) 0x00) := by
  rw [frameBody, hs, cmdByte_eq_or]
  rfl

theorem direction_of_truth (x : Word) : (if truth x then 0x80 else 0x00 : Byte) = if x = 0 then 0x00 else 0x80 := by
  by_cases h : x = 0 <;> simp [truth, h]

/-- Settles O9: a payload that fits is encoded to a frame of `N` bytes, a longer one is refused. -/
theorem encodeOperationBuildsFrame : Obligations.EncodeOperationBuildsFrame := by
  refine ⟨fun _ => decode_encode (i := .fcEncode) rfl, fun s hb hs hn => ⟨fun hpl => ?_, fun hpl => ?_⟩⟩
  · change (dinBytes s).length ≤ s.cfg.pcap at hpl
    rw [← direction_of_truth, ← frameBody_eq hs]
    refine returns_of_meaning (rv := .any) (fun _ => rfl) hb ?_ (delivers_frame (length_frameOf hn hpl) _ _ _)
    rw [encodeFrame_of_le _ _ hpl]
    rfl
  · change s.cfg.pcap < (dinBytes s).length at hpl
    refine raises_of_meaning (fun _ => rfl) hb ?_
    rw [encodeFrame_of_lt _ _ hpl]
    rfl

/-- Settles O11: the poll frame is a READ frame of endpoint 0 with no payload. -/
theorem pollOperationBuildsPollFrame : Obligations.PollOperationBuildsPollFrame := by
  refine ⟨fun _ => decode_encode (i := .fcPoll) rfl, fun s hb hs hn => ?_⟩
  have hlen := length_pollFrame hn
  rw [pollFrame, frameOf, frameBody_eq hs] at hlen
  refine returns_of_meaning (rv := .any) (fun _ => rfl) hb ?_ (delivers_frame hlen _ _ _)
  rw [pollFrame, frameOf, frameBody_eq hs]

@[simp] theorem length_dinBytes (s : State) : (dinBytes s).length = s.req.dlen.toNat := length_bytes _ _

/-- `DIN` holds a sequence of `N` bytes exactly when `DLEN` is `FRAME_LEN`. -/
theorem length_dinBytes_eq_n {s : State} : (dinBytes s).length = s.cfg.n ↔ s.req.dlen = s.cfg.frameLen := by
  rw [length_dinBytes]
  exact BitVec.toNat_inj

theorem dinBytes_eq_bytes {s : State} (hl : s.req.dlen = s.cfg.frameLen) : dinBytes s = s.req.din.bytes s.cfg.n := by
  rw [dinBytes, hl]
  rfl

/-- The payload region of a buffer's first `N` bytes is the buffer from offset 2. -/
theorem payloadOf_bytes {c : Config} (m : Memory) (hn : 3 ≤ c.n) :
    payloadOf c (m.bytes c.n) = (List.range c.pcap).map fun k => m.read (k + 2) := by
  have hp : c.pcap = c.n - 3 := rfl
  refine List.ext_getElem (by simp [payloadOf]; omega) fun k _ _ => ?_
  simp [payloadOf, Memory.bytes, Nat.add_comm]

theorem decodeFrame_bytes {c : Config} (m : Memory) (hn : 3 ≤ c.n) :
    decodeFrame c (m.bytes c.n) = .ok (m.read 1, (List.range c.pcap).map fun k => m.read (k + 2)) := by
  rw [decodeFrame_of_length (length_bytes _ _), payloadOf_bytes m hn, ← read_eq_getD_bytes m (by omega)]

/-- Settles O10: `DLEN` decides whether `DIN` is split, and the parts are those of `decodeFrame_bytes`. -/
theorem decodeOperationSplitsFrame : Obligations.DecodeOperationSplitsFrame := by
  refine ⟨fun _ => decode_encode (i := .fcDecode) rfl, fun s hb hn => ⟨fun hl => ?_, fun hl => ?_⟩⟩
  · have hp : s.cfg.pcap = s.cfg.frameLen.toNat - 3 := rfl
    refine returns_of_meaning (fun _ => rfl) hb (by rw [dinBytes_eq_bytes hl, decodeFrame_bytes _ hn]; rfl)
      ⟨rfl, ?_, fun k hk => ?_⟩
    · refine (delivers_finish ?_ _ _ _).1.trans ?_
      · simpa using pcap_le s.cfg
      · simp [hp]
    · simp [drawDout, hp, hk]
  · refine raises_of_meaning (fun _ => rfl) hb ?_
    rw [decodeFrame_of_ne (mt length_dinBytes_eq_n.1 hl)]
    rfl

theorem bytes_succ (m : Memory) (n : Nat) : m.bytes (n + 1) = m.bytes n ++ [m.read n] := by
  simp [Memory.bytes, List.range_succ]

/-- The trailer of a buffer's first `N` bytes is the byte at offset `N-1`. -/
theorem trailerOk_bytes {c : Config} (m : Memory) (hn : 1 ≤ c.n) :
    trailerOk c (m.bytes c.n) = true ↔ crc8 c (m.bytes (c.n - 1)) = m.read (c.n - 1) := by
  have hsplit := bytes_succ m (c.n - 1)
  rw [Nat.sub_add_cancel hn] at hsplit
  rw [hsplit]
  exact trailerOk_append (hsplit ▸ length_bytes _ _)

/-- Settles O12: `DLEN` decides whether `DIN` is checked, and the flag is that of `trailerOk_bytes`. -/
theorem checkOperationTestsTrailer : Obligations.CheckOperationTestsTrailer := by
  refine ⟨fun _ => decode_encode (i := .fcCheck) rfl, fun s hb hn => ⟨fun hl => ?_, fun hl => ?_⟩⟩
  · refine returns_of_meaning (dout := .any) (fun _ => rfl) hb
      (by rw [dinBytes_eq_bytes hl, crcOk_of_length (length_bytes _ _)]; rfl) ?_
    exact if_congr (trailerOk_bytes _ hn) rfl rfl
  · refine raises_of_meaning (fun _ => rfl) hb ?_
    rw [crcOk_of_ne (mt length_dinBytes_eq_n.1 hl)]
    rfl

end Sys2Proof.Machine

namespace Sys2Proof.Machine

/-! ### Who writes the ready latch (41_transport_adapter R122, R123, R125)

Apart from the ready edge before a step, only the wait and reset write `RDY`. -/

@[simp] theorem stepWrite_rdy (s : State) : (stepWrite s).rdy = s.rdy := rfl

@[simp] theorem stepRead_rdy (s : State) : (stepRead s).rdy = s.rdy := rfl

@[simp] theorem stepPoll_rdy (s : State) : (stepPoll s).rdy = s.rdy := rfl

@[simp] theorem stepRetryInner_rdy (s : State) : (stepRetryInner s).rdy = s.rdy := by
  unfold stepRetryInner
  split
  · rfl
  · cases s.cc.kind <;> rfl

@[simp] theorem stepRetryOuter_rdy (s : State) : (stepRetryOuter s).rdy = s.rdy := by
  unfold stepRetryOuter
  split <;> rfl

@[simp] theorem endGet_rdy (ok : Bool) (s : State) : (endGet ok s).rdy = s.rdy := by
  cases ok <;> rfl

@[simp] theorem endSet_rdy (ok : Bool) (s : State) : (endSet ok s).rdy = s.rdy := by
  unfold endSet
  rcases s.disp with _ | ⟨_ | _, _⟩ <;> rfl

@[simp] theorem stepEnd_rdy (ok : Bool) (s : State) : (stepEnd ok s).rdy = s.rdy := by
  unfold stepEnd
  cases s.cc.kind with
  | get => exact endGet_rdy ok s
  | set => exact endSet_rdy ok s

@[simp] theorem stepAtRest_rdy (s : State) : (stepAtRest s).rdy = s.rdy := by
  unfold stepAtRest; cases s.host <;> rfl

/-- No host operation touches the latch, one that starts a transaction included (42_command_channel R135). -/
theorem HostStep.rdy {i : Instr} {s t : State} (h : HostStep i s t) : t.rdy = s.rdy := by
  cases h <;> rfl

/-- The wait takes the latch and clears it (41_transport_adapter R122). -/
@[simp] theorem stepAwait_rdy (s : State) : (stepAwait s).rdy = false := rfl

/-- What the latch held is where the wait leads (42_command_channel R138). -/
theorem stepAwait_polling_iff (s : State) : (stepAwait s).cc.st = .polling ↔ s.rdy = true := by
  cases h : s.rdy <;> simp [stepAwait, h]

/-- A step that is neither a wait nor reset leaves the latch as the sampling of the input lines left it. -/
theorem StepCase.rdy_eq_sample {s t : State} (h : StepCase s t) (hr : (linesNow s).reset = false)
    (hst : s.cc.st ≠ .awaitingSignal) : t.rdy = (sample s).rdy := by
  cases h with
  | reset hreset => cases hr.symm.trans hreset
  | await _ hwait => exact absurd hwait hst
  | rest => exact stepAtRest_rdy _
  | op _ _ _ _ _ _ ht => exact ht.rdy
  | write => exact stepWrite_rdy _
  | read => exact stepRead_rdy _
  | poll => exact stepPoll_rdy _
  | reserved | nextSet | reject | accept => rfl
  | retryInner => exact stepRetryInner_rdy _
  | retryOuter => exact stepRetryOuter_rdy _
  | success | failed => exact stepEnd_rdy _ _

/-- In `AwaitingSignal` the only step but reset is the wait. -/
theorem step_awaitingSignal {s : State} (hr : (linesNow s).reset = false) (hst : s.cc.st = .awaitingSignal) :
    step s = .next (stepAwait (takeStart (sample s))) := by
  simp [step, blockStep, hr, hst]

/-- Settles O43: reset clears the latch, the wait hands over what was sampled and clears it, and every other step is
`StepCase.rdy_eq_sample`. -/
theorem readyLatchPersists : Obligations.ReadyLatchPersists := by
  intro s t hstep
  refine ⟨fun hr => ?_, fun hr hst => ?_, fun hr hst => ?_⟩
  · rw [step, if_pos hr] at hstep
    cases hstep
    rfl
  · exact ((step_next_cases hstep).rdy_eq_sample hr hst).trans (sample_rdy s)
  · rw [step_awaitingSignal hr hst] at hstep
    cases hstep
    refine ⟨stepAwait_rdy _, ?_⟩
    rw [← sample_rdy s]
    exact stepAwait_polling_iff (takeStart (sample s))

end Sys2Proof.Machine

namespace Sys2Proof.Machine

/-! ### What the steps that record an event leave of the channel (42_command_channel R136, R137, R138, R140) -/

@[simp] theorem stepWrite_cfg (s : State) : (stepWrite s).cfg = s.cfg := rfl
@[simp] theorem stepWrite_disp (s : State) : (stepWrite s).disp = s.disp := rfl
@[simp] theorem stepWrite_lines (s : State) : (stepWrite s).lines = s.lines := rfl
@[simp] theorem stepWrite_answers (s : State) : (stepWrite s).answers = s.answers.tail := rfl
@[simp] theorem stepWrite_cc_st (s : State) : (stepWrite s).cc.st = s.cc.st := rfl
@[simp] theorem stepWrite_cc_kind (s : State) : (stepWrite s).cc.kind = s.cc.kind := rfl
@[simp] theorem stepWrite_cc_phase (s : State) : (stepWrite s).cc.phase = .rd := rfl
@[simp] theorem stepWrite_cc_wcnt (s : State) : (stepWrite s).cc.wcnt = s.cc.wcnt := rfl
@[simp] theorem stepWrite_cc_rcnt (s : State) : (stepWrite s).cc.rcnt = s.cfg.rBudget := rfl

@[simp] theorem stepRead_cfg (s : State) : (stepRead s).cfg = s.cfg := rfl
@[simp] theorem stepRead_disp (s : State) : (stepRead s).disp = s.disp := rfl
@[simp] theorem stepRead_lines (s : State) : (stepRead s).lines = s.lines := rfl
@[simp] theorem stepRead_answers (s : State) : (stepRead s).answers = s.answers.tail := rfl
@[simp] theorem stepRead_cc_st (s : State) : (stepRead s).cc.st = .awaitingSignal := rfl
@[simp] theorem stepRead_cc_kind (s : State) : (stepRead s).cc.kind = s.cc.kind := rfl
@[simp] theorem stepRead_cc_phase (s : State) : (stepRead s).cc.phase = s.cc.phase := rfl
@[simp] theorem stepRead_cc_wcnt (s : State) : (stepRead s).cc.wcnt = s.cc.wcnt := rfl
@[simp] theorem stepRead_cc_rcnt (s : State) : (stepRead s).cc.rcnt = s.cc.rcnt := rfl

@[simp] theorem stepAwait_cfg (s : State) : (stepAwait s).cfg = s.cfg := rfl
@[simp] theorem stepAwait_disp (s : State) : (stepAwait s).disp = s.disp := rfl
@[simp] theorem stepAwait_lines (s : State) : (stepAwait s).lines = s.lines := rfl
@[simp] theorem stepAwait_answers (s : State) : (stepAwait s).answers = s.answers := rfl
@[simp] theorem stepAwait_cc_st (s : State) :
    (stepAwait s).cc.st = if s.rdy then .polling else .retryInner := rfl
@[simp] theorem stepAwait_cc_kind (s : State) : (stepAwait s).cc.kind = s.cc.kind := rfl
@[simp] theorem stepAwait_cc_phase (s : State) : (stepAwait s).cc.phase = s.cc.phase := rfl
@[simp] theorem stepAwait_cc_wcnt (s : State) : (stepAwait s).cc.wcnt = s.cc.wcnt := rfl
@[simp] theorem stepAwait_cc_rcnt (s : State) : (stepAwait s).cc.rcnt = s.cc.rcnt := rfl

@[simp] theorem stepPoll_cfg (s : State) : (stepPoll s).cfg = s.cfg := rfl
@[simp] theorem stepPoll_disp (s : State) : (stepPoll s).disp = s.disp := rfl
@[simp] theorem stepPoll_lines (s : State) : (stepPoll s).lines = s.lines := rfl
@[simp] theorem stepPoll_answers (s : State) : (stepPoll s).answers = s.answers.tail := rfl
@[simp] theorem stepPoll_cc_st (s : State) : (stepPoll s).cc.st = .validating := rfl
@[simp] theorem stepPoll_cc_kind (s : State) : (stepPoll s).cc.kind = s.cc.kind := rfl
@[simp] theorem stepPoll_cc_phase (s : State) : (stepPoll s).cc.phase = s.cc.phase := rfl
@[simp] theorem stepPoll_cc_wcnt (s : State) : (stepPoll s).cc.wcnt = s.cc.wcnt := rfl
@[simp] theorem stepPoll_cc_rcnt (s : State) : (stepPoll s).cc.rcnt = s.cc.rcnt := rfl

/-! ### What a step records in `CC.seq` (10_state R31, 42_command_channel R149) -/

/-- One more event is counted by the kinds it belongs to. -/
theorem count_of_seq_append {s t : State} {e : Event} (h : t.cc.seq = s.cc.seq ++ [e]) (p : Event → Bool) :
    count p t = count p s + if p e then 1 else 0 := by
  simp [count, h, List.countP_append, List.countP_singleton]

@[simp] theorem count_sample (p : Event → Bool) (s : State) : count p (sample s) = count p s := rfl

@[simp] theorem count_takeStart (p : Event → Bool) (s : State) : count p (takeStart s) = count p s := rfl

@[simp] theorem count_goto (p : Event → Bool) (st : SeqState) (s : State) : count p (goto st s) = count p s := rfl

@[simp] theorem count_sendAgain (p : Event → Bool) (ph : Phase) (s : State) :
    count p (sendAgain ph s) = count p s := rfl

@[simp] theorem count_decRcnt (p : Event → Bool) (s : State) : count p (decRcnt s) = count p s := rfl

@[simp] theorem count_decWcnt (p : Event → Bool) (s : State) : count p (decWcnt s) = count p s := rfl

@[simp] theorem count_takeResponse (p : Event → Bool) (s : State) : count p (takeResponse s) = count p s := rfl

/-! The command byte of a frame decides what its exchange counts as. -/

theorem isWrite_frameOf (c : Config) (w : Bool) (ep : BitVec 7) (pl rx : List Byte) :
    isWrite (.exch (frameOf c w ep pl) rx) = w :=
  cmdByte_bit7 w ep

theorem isPoll_frameOf (c : Config) (w : Bool) (ep : BitVec 7) (pl rx : List Byte) :
    isPoll (.exch (frameOf c w ep pl) rx) = (cmdByte w ep == 0) := rfl

theorem cmdByte_ne_zero : ∀ (w : Bool) (ep : BitVec 7), ep ≠ 0 → cmdByte w ep ≠ 0 := by decide

/-- No endpoint has the code of the poll frame (30_encoding R74). -/
theorem isPoll_endpoint {ep : BitVec 7} (hep : ep ≠ 0) (c : Config) (w : Bool) (pl rx : List Byte) :
    isPoll (.exch (frameOf c w ep pl) rx) = false := by
  rw [isPoll_frameOf, beq_eq_false_iff_ne]
  exact cmdByte_ne_zero w ep hep

theorem isPoll_pollFrame (c : Config) (rx : List Byte) : isPoll (.exch (pollFrame c) rx) = true := rfl

/-- A READ request is what is neither a WRITE nor a poll. -/
theorem isRead_exch (tx rx : List Byte) :
    isRead (.exch tx rx) = (!isWrite (.exch tx rx) && !isPoll (.exch tx rx)) := rfl

theorem endpoint?_ne_zero {c : Config} {ep : BitVec 7} (h : (endpoint? c ep).isSome = true) : ep ≠ 0 := by
  rcases endpoint?_code h with rfl | rfl | rfl | rfl <;> decide

/-- `CC.seq` records the frame that was loaded, whole. -/
theorem exchange_loadTx_seq {s : State} {tx : List Byte} (htx : tx.length = s.cfg.n) :
    (exchange (loadTx tx s)).cc.seq = s.cc.seq ++ [.exch tx (answer s)] := by
  change s.cc.seq ++ [.exch ((Memory.ofBytes tx).bytes s.cfg.n) (answer s)] = _
  rw [bytes_ofBytes htx]

theorem stepWrite_seq {s : State} (h : Inv s) :
    (stepWrite s).cc.seq = s.cc.seq ++ [.exch (frameOf s.cfg true s.cc.ep (writePayload s)) (answer s)] :=
  exchange_loadTx_seq (length_frameOf (three_le_n h.cfgWf) (length_writePayload_le h))

theorem stepRead_seq {s : State} (h : Inv s) :
    (stepRead s).cc.seq = s.cc.seq ++ [.exch (frameOf s.cfg false s.cc.ep (readPayload s)) (answer s)] :=
  exchange_loadTx_seq (length_frameOf (three_le_n h.cfgWf) (length_readPayload_le h.cfgWf))

theorem stepPoll_seq {s : State} (h : Inv s) :
    (stepPoll s).cc.seq = s.cc.seq ++ [.exch (pollFrame s.cfg) (answer s)] :=
  exchange_loadTx_seq (length_pollFrame (three_le_n h.cfgWf))

theorem stepAwait_seq (s : State) : (stepAwait s).cc.seq = s.cc.seq ++ [.wait s.rdy] := rfl

/-- A WRITE frame is one outer attempt. -/
theorem count_stepWrite {s : State} (h : Inv s) (hst : s.cc.st = .sending) :
    count isWrite (stepWrite s) = count isWrite s + 1 ∧ count isRead (stepWrite s) = count isRead s ∧
      count isPoll (stepWrite s) = count isPoll s ∧ count isWait (stepWrite s) = count isWait s := by
  have hep : s.cc.ep ≠ 0 := endpoint?_ne_zero (h.epKnown (by simp [hst]))
  have hseq := count_of_seq_append (stepWrite_seq h)
  simp [hseq, isRead_exch, isWrite_frameOf, isPoll_endpoint hep, isWait]

/-- A READ request is one inner attempt. -/
theorem count_stepRead {s : State} (h : Inv s) (hst : s.cc.st = .sending) :
    count isWrite (stepRead s) = count isWrite s ∧ count isRead (stepRead s) = count isRead s + 1 ∧
      count isPoll (stepRead s) = count isPoll s ∧ count isWait (stepRead s) = count isWait s := by
  have hep : s.cc.ep ≠ 0 := endpoint?_ne_zero (h.epKnown (by simp [hst]))
  have hseq := count_of_seq_append (stepRead_seq h)
  simp [hseq, isRead_exch, isWrite_frameOf, isPoll_endpoint hep, isWait]

theorem count_stepPoll {s : State} (h : Inv s) :
    count isWrite (stepPoll s) = count isWrite s ∧ count isRead (stepPoll s) = count isRead s ∧
      count isPoll (stepPoll s) = count isPoll s + 1 ∧ count isWait (stepPoll s) = count isWait s := by
  have hseq := count_of_seq_append (stepPoll_seq h)
  have hw : isWrite (.exch (pollFrame s.cfg) (answer s)) = false := isWrite_frameOf _ _ _ _ _
  simp [hseq, isRead_exch, hw, isPoll_pollFrame, isWait]

theorem count_stepAwait (s : State) :
    count isWrite (stepAwait s) = count isWrite s ∧ count isRead (stepAwait s) = count isRead s ∧
      count isPoll (stepAwait s) = count isPoll s ∧ count isWait (stepAwait s) = count isWait s + 1 := by
  have hseq := count_of_seq_append (stepAwait_seq s)
  simp [hseq, isWrite, isRead, isPoll, isWait]

/-! ### The accounts, one sequencer state at a time (42_command_channel R148, R149)

`Accounts` has clauses for every state; here each state has the ones that speak of it. -/

/-- The inner attempt that is counted but not yet taken from the read budget: none before its READ request is sent. -/
def openRead (s : State) : Nat := if s.cc.st = .sending then 0 else 1

/-- The ledger inside an inner get, from its first READ request on. -/
structure InnerAccounts (s : State) : Prop where
  getWrites : s.cc.kind = .get → count isWrite s = 0
  getReads  : s.cc.kind = .get → count isRead s + s.cc.rcnt.toNat = 4 + openRead s
  setWrites : s.cc.kind = .set → count isWrite s + s.cc.wcnt.toNat = 37
  setReads  : s.cc.kind = .set → count isRead s ≤ 4 * count isWrite s
  setBudget : s.cc.kind = .set → count isRead s + s.cc.rcnt.toNat ≤ 4 * count isWrite s + openRead s
  waits     : count isWait s + (if s.cc.st = .awaitingSignal then 1 else 0) = count isRead s
  polls     : count isPoll s + (if s.cc.st = .polling then 1 else 0) ≤ count isWait s

theorem inGet_ne {st : SeqState} (h : st.inGet = true) : st ≠ .idle ∧ st ≠ .success ∧ st ≠ .failed := by
  cases st <;> simp [SeqState.inGet] at h ⊢

theorem not_inGet_ne {st : SeqState} (h : st.inGet = false) : st ≠ .sending ∧ st ≠ .awaitingSignal ∧ st ≠ .polling := by
  cases st <;> simp [SeqState.inGet] at h ⊢

/-- In an inner get the two ledgers say the same. -/
theorem accounts_iff_inner {s : State} (hin : s.cc.st.inGet = true) (hp : s.cc.phase = .rd) :
    Accounts s ↔ InnerAccounts s := by
  obtain ⟨hidle, hsuccess, hfailed⟩ := inGet_ne hin
  constructor
  · intro h
    have hreads (hk : s.cc.kind = .get) : count isRead s + s.cc.rcnt.toNat = 4 + openRead s := by
      by_cases hst : s.cc.st = .sending
      · simpa [openRead, hst] using h.getReads hst hk
      · simpa [openRead, hst] using h.getReads' hin hst hk
    exact
      { getWrites := h.getWrites hidle
        getReads := hreads
        setWrites := fun hk => h.setWrites hidle hfailed hk hp
        setReads := h.setReads hidle
        setBudget := fun hk => h.setReads' hin hk hp
        waits := h.waits hidle
        polls := h.polls hidle }
  · intro h
    exact
      { getWrites := fun _ => h.getWrites
        wrWrites := fun _ hwr => nomatch hp.symm.trans hwr
        setWrites := fun _ _ hk _ => h.setWrites hk
        setFailed := fun hst => absurd hst hfailed
        getReads := fun hst hk => by simpa [openRead, hst] using h.getReads hk
        getReads' := fun _ hst hk => by simpa [openRead, hst] using h.getReads hk
        getFailed := fun hst => absurd hst hfailed
        getDone := fun hst => absurd hst hsuccess
        setReads := fun _ => h.setReads
        setReads' := fun _ hk _ => h.setBudget hk
        waits := fun _ => h.waits
        polls := fun _ => h.polls }

/-- No transaction, no account. -/
theorem accounts_idle {s : State} (hst : s.cc.st = .idle) : Accounts s := by
  constructor <;> simp [hst, SeqState.inGet]

/-- Outside an inner get each READ request has had its wait, and no poll came without one. -/
structure Settled (s : State) : Prop where
  waits : count isWait s = count isRead s
  polls : count isPoll s ≤ count isWait s

/-- The WRITE frame is about to be sent. -/
theorem accounts_sending_wr {s : State} (hst : s.cc.st = .sending) (hp : s.cc.phase = .wr) (hk : s.cc.kind = .set)
    (hw : count isWrite s + s.cc.wcnt.toNat = 36) (hr : count isRead s ≤ 4 * count isWrite s) (h : Settled s) :
    Accounts s := by
  constructor <;> simp [hst, hp, hk, hw, hr, h.waits, h.waits ▸ h.polls]

/-- A set outside its inner gets. The outer attempt under way is still to be taken from the write budget, unless the set
has failed. -/
theorem accounts_of_set {s : State} (hk : s.cc.kind = .set) (hout : s.cc.st.inGet = false)
    (hw : s.cc.st ≠ .failed → count isWrite s + s.cc.wcnt.toNat = 37)
    (hfailed : s.cc.st = .failed → count isWrite s = 36 ∧ s.cc.wcnt.toNat = 0)
    (hr : count isRead s ≤ 4 * count isWrite s) (h : Settled s) : Accounts s :=
  have ⟨hsending, hawait, hpoll⟩ := not_inGet_ne hout
  { getWrites := fun _ hget => nomatch hk.symm.trans hget
    wrWrites := fun hst => absurd hst hsending
    setWrites := fun _ hne _ _ => hw hne
    setFailed := fun hst _ => hfailed hst
    getReads := fun hst => absurd hst hsending
    getReads' := fun hin => nomatch hout.symm.trans hin
    getFailed := fun _ hget => nomatch hk.symm.trans hget
    getDone := fun _ hget => nomatch hk.symm.trans hget
    setReads := fun _ _ => hr
    setReads' := fun hin => nomatch hout.symm.trans hin
    waits := fun _ => by rw [if_neg hawait]; exact h.waits
    polls := fun _ => by rw [if_neg hpoll]; exact h.polls }

/-- A get that has ended: it has its result, or it has made all its attempts. -/
theorem accounts_of_get {s : State} (hk : s.cc.kind = .get) (hout : s.cc.st.inGet = false)
    (hw : count isWrite s = 0) (hdone : s.cc.st = .success → 1 ≤ count isRead s ∧ count isRead s ≤ 4)
    (hfailed : s.cc.st = .failed → count isRead s = 4) (h : Settled s) : Accounts s :=
  have ⟨hsending, hawait, hpoll⟩ := not_inGet_ne hout
  { getWrites := fun _ _ => hw
    wrWrites := fun hst => absurd hst hsending
    setWrites := fun _ _ hset => nomatch hk.symm.trans hset
    setFailed := fun _ hset => nomatch hk.symm.trans hset
    getReads := fun hst => absurd hst hsending
    getReads' := fun hin => nomatch hout.symm.trans hin
    getFailed := fun hst _ => hfailed hst
    getDone := fun hst _ => hdone hst
    setReads := fun _ hset => nomatch hk.symm.trans hset
    setReads' := fun hin => nomatch hout.symm.trans hin
    waits := fun _ => by rw [if_neg hawait]; exact h.waits
    polls := fun _ => by rw [if_neg hpoll]; exact h.polls }

/-! ### The retries, one outcome at a time (42_command_channel R143, R144) -/

theorem stepRetryInner_again {s : State} (h : s.cc.rcnt - 1 ≠ 0) :
    stepRetryInner s = sendAgain .rd (decRcnt s) :=
  if_pos h

theorem stepRetryInner_get {s : State} (h : s.cc.rcnt - 1 = 0) (hk : s.cc.kind = .get) :
    stepRetryInner s = goto .failed (decRcnt s) := by
  rw [stepRetryInner, if_neg (not_not.2 h), hk]

theorem stepRetryInner_set {s : State} (h : s.cc.rcnt - 1 = 0) (hk : s.cc.kind = .set) :
    stepRetryInner s = goto .retryOuter (decRcnt s) := by
  rw [stepRetryInner, if_neg (not_not.2 h), hk]

theorem stepRetryOuter_again {s : State} (h : s.cc.wcnt - 1 ≠ 0) :
    stepRetryOuter s = sendAgain .wr (decWcnt s) :=
  if_pos h

theorem stepRetryOuter_last {s : State} (h : s.cc.wcnt - 1 = 0) : stepRetryOuter s = goto .failed (decWcnt s) :=
  if_neg (not_not.2 h)

/-! ### Every step keeps the accounts -/

/-- A get sends no WRITE frame. -/
theorem kind_eq_set_of_wr {s : State} (h : Inv s) (hst : s.cc.st ≠ .idle) (hp : s.cc.phase = .wr) :
    s.cc.kind = .set := by
  cases hk : s.cc.kind with
  | set => rfl
  | get => cases hp.symm.trans (h.getPhase hst hk)

theorem accounts_stepWrite {s : State} (hinv : Inv s) (h : Accounts s) (hst : s.cc.st = .sending)
    (hp : s.cc.phase = .wr) : Accounts (stepWrite s) := by
  have hidle : s.cc.st ≠ .idle := by simp [hst]
  have hk : s.cc.kind = .set := kind_eq_set_of_wr hinv hidle hp
  obtain ⟨hw, hr, hpl, hwt⟩ := count_stepWrite hinv hst
  have hwrites := h.wrWrites hst hp
  have hreads := h.setReads hidle hk
  have hwaits := h.waits hidle
  have hpolls := h.polls hidle
  have hbudget := toNat_rBudget hinv.cfgWf
  rw [accounts_iff_inner (by simp [hst, SeqState.inGet]) rfl]
  constructor <;> simp [hst, hk, openRead] at * <;> omega

/-- What holds once the READ request of an inner get is out. -/
theorem Accounts.inner {s : State} (h : Accounts s) (hinv : Inv s) (hin : s.cc.st.inGet = true)
    (hst : s.cc.st ≠ .sending) : InnerAccounts s ∧ 1 ≤ s.cc.rcnt.toNat ∧ s.cc.phase = .rd :=
  have hp : s.cc.phase = .rd := hinv.phaseRd (inGet_ne hin).1 hst
  ⟨(accounts_iff_inner hin hp).1 h, hinv.rcntPos hin hp, hp⟩

/-- The ledger balances: an inner attempt goes from the read budget to the count, and nothing else moves. -/
theorem InnerAccounts.balance {s t : State} (h : InnerAccounts s) (hin : t.cc.st.inGet = true)
    (hp : t.cc.phase = .rd) (hk : t.cc.kind = s.cc.kind) (hwcnt : t.cc.wcnt = s.cc.wcnt)
    (hw : count isWrite t = count isWrite s)
    (hr : count isRead t + t.cc.rcnt.toNat + openRead s = count isRead s + s.cc.rcnt.toNat + openRead t)
    (hopen : openRead t ≤ t.cc.rcnt.toNat)
    (hwaits : count isWait t + (if t.cc.st = .awaitingSignal then 1 else 0) = count isRead t)
    (hpolls : count isPoll t + (if t.cc.st = .polling then 1 else 0) ≤ count isWait t) : Accounts t := by
  rw [accounts_iff_inner hin hp]
  refine ⟨fun hget => ?_, fun hget => ?_, fun hset => ?_, fun hset => ?_, fun hset => ?_, hwaits, hpolls⟩
  · exact hw.trans (h.getWrites (hk.symm.trans hget))
  · have := h.getReads (hk.symm.trans hget)
    omega
  · rw [hw, hwcnt]
    exact h.setWrites (hk.symm.trans hset)
  all_goals
    have := h.setBudget (hk.symm.trans hset)
    omega

section
variable {s : State} (hinv : Inv s) (h : Accounts s)
include hinv h

theorem accounts_stepRead (hst : s.cc.st = .sending) (hp : s.cc.phase = .rd) : Accounts (stepRead s) := by
  have hin : s.cc.st.inGet = true := by simp [hst, SeqState.inGet]
  have hi : InnerAccounts s := (accounts_iff_inner hin hp).1 h
  have hpos : 1 ≤ s.cc.rcnt.toNat := hinv.rcntPos hin hp
  obtain ⟨hw, hr, hpl, hwt⟩ := count_stepRead hinv hst
  have hwaits := hi.waits
  have hpolls := hi.polls
  refine hi.balance rfl hp rfl rfl hw ?_ ?_ ?_ ?_ <;> simp [openRead, hst] at * <;> omega

theorem accounts_stepAwait (hst : s.cc.st = .awaitingSignal) : Accounts (stepAwait s) := by
  obtain ⟨hi, hpos, hp⟩ := h.inner hinv (by simp [hst, SeqState.inGet]) (by simp [hst])
  obtain ⟨hw, hr, hpl, hwt⟩ := count_stepAwait s
  have hwaits := hi.waits
  have hpolls := hi.polls
  cases hrdy : s.rdy <;>
    refine hi.balance ?_ hp rfl rfl hw ?_ ?_ ?_ ?_ <;> simp [openRead, hst, hrdy, SeqState.inGet] at * <;> omega

theorem accounts_stepPoll (hst : s.cc.st = .polling) : Accounts (stepPoll s) := by
  obtain ⟨hi, hpos, hp⟩ := h.inner hinv (by simp [hst, SeqState.inGet]) (by simp [hst])
  obtain ⟨hw, hr, hpl, hwt⟩ := count_stepPoll hinv
  have hwaits := hi.waits
  have hpolls := hi.polls
  refine hi.balance rfl hp rfl rfl hw ?_ ?_ ?_ ?_ <;> simp [openRead, hst] at * <;> omega

theorem accounts_reject (hst : s.cc.st = .validating) : Accounts (goto .retryInner s) := by
  obtain ⟨hi, hpos, hp⟩ := h.inner hinv (by simp [hst, SeqState.inGet]) (by simp [hst])
  have hwaits := hi.waits
  have hpolls := hi.polls
  refine hi.balance rfl hp rfl rfl rfl ?_ ?_ ?_ ?_ <;> simp [openRead, hst] at * <;> omega

/-- An accepted response: the get has its result, and the set is compared (42_command_channel R141, R142). -/
theorem accounts_accept (hst : s.cc.st = .validating) :
    Accounts (goto (afterAccept (takeResponse s)) (takeResponse s)) := by
  obtain ⟨hi, hpos, _⟩ := h.inner hinv (by simp [hst, SeqState.inGet]) (by simp [hst])
  have hsettled : Settled (goto (afterAccept (takeResponse s)) (takeResponse s)) :=
    ⟨by simpa [hst] using hi.waits, by simpa [hst] using hi.polls⟩
  rcases afterAccept_cases (takeResponse s) with ha | ⟨ha, hk⟩ <;> rw [ha] at hsettled ⊢
  · cases hk : s.cc.kind with
    | get =>
      have hr := hi.getReads hk
      have hle := hinv.rcntLe
      simp [openRead, hst] at hr
      refine accounts_of_get hk rfl (hi.getWrites hk) (fun _ => ?_) nofun hsettled
      simp
      omega
    | set => exact accounts_of_set hk rfl (fun _ => hi.setWrites hk) nofun (hi.setReads hk) hsettled
  · exact accounts_of_set hk rfl (fun _ => hi.setWrites hk) nofun (hi.setReads hk) hsettled

/-- A read attempt is taken from the budget (42_command_channel R143). -/
theorem accounts_stepRetryInner (hst : s.cc.st = .retryInner) : Accounts (stepRetryInner s) := by
  obtain ⟨hi, hpos, _⟩ := h.inner hinv (by simp [hst, SeqState.inGet]) (by simp [hst])
  have hwaits := hi.waits
  have hpolls := hi.polls
  simp [hst] at hwaits hpolls
  have hsettled (st : SeqState) : Settled (goto st (decRcnt s)) := ⟨hwaits, hpolls⟩
  by_cases hlast : s.cc.rcnt - 1 = 0
  · have hone : s.cc.rcnt.toNat = 1 := by bv_omega
    cases hk : s.cc.kind with
    | get =>
      have hr := hi.getReads hk
      rw [stepRetryInner_get hlast hk]
      refine accounts_of_get hk rfl (hi.getWrites hk) nofun (fun _ => ?_) (hsettled _)
      simp [openRead, hst] at hr ⊢
      omega
    | set =>
      rw [stepRetryInner_set hlast hk]
      exact accounts_of_set hk rfl (fun _ => hi.setWrites hk) nofun (hi.setReads hk) (hsettled _)
  · have hpred : (s.cc.rcnt - 1#3).toNat = s.cc.rcnt.toNat - 1 := by bv_omega
    rw [stepRetryInner_again hlast]
    refine hi.balance rfl rfl rfl rfl rfl ?_ ?_ ?_ ?_ <;> simp [openRead, hst, hpred, -BitVec.toNat_sub] <;> omega

end

/-- A write attempt is taken from the budget (42_command_channel R144). -/
theorem accounts_stepRetryOuter {s : State} (hinv : Inv s) (h : Accounts s) (hst : s.cc.st = .retryOuter) :
    Accounts (stepRetryOuter s) := by
  have hidle : s.cc.st ≠ .idle := by simp [hst]
  have hfailed : s.cc.st ≠ .failed := by simp [hst]
  have hk := hinv.outerSet hst
  have hw := h.setWrites hidle hfailed hk (hinv.phaseRd hidle (by simp [hst]))
  have hr := h.setReads hidle hk
  have hpos := hinv.wcntPos hidle hfailed hk
  have hwaits := h.waits hidle
  have hpolls := h.polls hidle
  simp [hst] at hwaits hpolls
  by_cases hlast : s.cc.wcnt - 1 = 0
  · have hone : s.cc.wcnt.toNat = 1 := by bv_omega
    have hspent : count isWrite s = 36 ∧ (s.cc.wcnt - 1).toNat = 0 := ⟨by omega, by rw [hlast]; rfl⟩
    rw [stepRetryOuter_last hlast]
    exact accounts_of_set hk rfl (absurd rfl) (fun _ => hspent) hr ⟨hwaits, hpolls⟩
  · have hleft : count isWrite s + (s.cc.wcnt - 1).toNat = 36 := by bv_omega
    rw [stepRetryOuter_again hlast]
    exact accounts_sending_wr rfl rfl hk hleft hr ⟨hwaits, hpolls⟩

/-- The start of a set: nothing is recorded and the write budget is whole. -/
theorem accounts_beginSet {s : State} {ep : BitVec 7} {subEn : Bool} {want : List Byte} (hc : s.cfg.wf = true) :
    Accounts (beginSet ep subEn want s) :=
  accounts_sending_wr rfl rfl rfl (by simp [count, toNat_wBudget hc]) (by simp [count]) ⟨rfl, le_rfl⟩

theorem accounts_beginGet {s : State} {ep : BitVec 7} {subEn : Bool} (hc : s.cfg.wf = true) :
    Accounts (beginGet ep subEn s) :=
  (accounts_iff_inner rfl rfl).2
    { getWrites := fun _ => rfl
      getReads := fun _ => by simp [count, openRead, toNat_rBudget hc]
      setWrites := nofun
      setReads := nofun
      setBudget := nofun
      waits := rfl
      polls := le_rfl }

theorem accounts_hostStep {i : Instr} {s t : State} (hinv : Inv s) (h : Accounts s) (ht : HostStep i s t) :
    Accounts t := by
  cases ht with
  | ends => exact { h with }
  | set => exact accounts_beginSet hinv.cfgWf
  | get => exact accounts_beginGet hinv.cfgWf
  | display => exact accounts_beginSet hinv.cfgWf

theorem stepEnd_cc (ok : Bool) (s : State) : (stepEnd ok s).cc = { s.cc with st := .idle } := by
  unfold stepEnd
  cases s.cc.kind with
  | get => cases ok <;> rfl
  | set =>
    unfold endSet
    rcases s.disp with _ | ⟨_ | _, _⟩ <;> rfl

theorem accounts_stepAtRest {s : State} (h : Accounts s) : Accounts (stepAtRest s) := by
  unfold stepAtRest
  cases s.host with
  | nil => exact h
  | cons r rs => exact { h with }

/-- Settles O52: a transaction starts with whole budgets, each step inside an inner get keeps the balance, and the
retries move an attempt from a budget to the record. -/
theorem stepKeepsAccounts : Obligations.StepKeepsAccounts := by
  intro s t hinv h hstep
  have hinv' : Inv (takeStart (sample s)) := inv_takeStart (inv_sample hinv)
  have h' : Accounts (takeStart (sample s)) := { h with }
  cases step_next_cases hstep with
  | reset => exact accounts_idle rfl
  | rest => exact accounts_stepAtRest { h with }
  | op _ _ _ i _ _ ht => exact accounts_hostStep hinv' h' ht
  | reserved => exact { h' with }
  | nextSet => exact accounts_beginSet hinv.cfgWf
  | write _ hst hp => exact accounts_stepWrite hinv' h' hst hp
  | read _ hst hp => exact accounts_stepRead hinv' h' hst hp
  | await _ hst => exact accounts_stepAwait hinv' h' hst
  | poll _ hst => exact accounts_stepPoll hinv' h' hst
  | reject _ hst => exact accounts_reject hinv' h' hst
  | accept _ hst => exact accounts_accept hinv' h' hst
  | retryInner _ hst => exact accounts_stepRetryInner hinv' h' hst
  | retryOuter _ hst => exact accounts_stepRetryOuter hinv' h' hst
  | success | failed => exact accounts_idle (congrArg Channel.st (stepEnd_cc _ _))

end Sys2Proof.Machine

namespace Sys2Proof.Machine

/-! ### The bounds of one transaction (42_command_channel R149) -/

/-- A WRITE frame is no poll. -/
theorem isPoll_of_isWrite {e : Event} (h : isWrite e = true) : isPoll e = false := by
  cases e with
  | wait b => rfl
  | exch tx rx =>
    refine beq_eq_false_iff_ne.2 fun h0 => ?_
    simp [isWrite, h0] at h

/-- Every exchange carries a WRITE frame, a READ request or the poll frame, and only one of them. -/
theorem exchange_is_one_of_three (e : Event) :
    (if !isWait e then 1 else 0) =
      (if isWrite e then 1 else 0) + (if isRead e then 1 else 0) + (if isPoll e then 1 else 0) := by
  cases e with
  | wait b => rfl
  | exch tx rx =>
    have hwp := isPoll_of_isWrite (e := .exch tx rx)
    rw [isRead_exch]
    generalize isWrite (.exch tx rx) = w at *
    generalize isPoll (.exch tx rx) = p at *
    cases w with
    | true => rw [hwp rfl]; rfl
    | false => cases p <;> rfl

theorem countP_exchanges (l : List Event) :
    l.countP (fun e => !isWait e) = l.countP isWrite + l.countP isRead + l.countP isPoll := by
  induction l with
  | nil => rfl
  | cons e l ih =>
    have he := exchange_is_one_of_three e
    simp only [List.countP_cons]
    omega

section
variable {s : State} (hinv : Inv s) (h : Accounts s) (hst : s.cc.st ≠ .idle)
include hinv h hst

/-- No set makes more outer attempts than its budget (42_command_channel R148). -/
theorem writes_le_of_set (hk : s.cc.kind = .set) : count isWrite s ≤ 36 := by
  by_cases hfailed : s.cc.st = .failed
  · exact (h.setFailed hfailed hk).1.le
  · have hpos := hinv.wcntPos hst hfailed hk
    cases hp : s.cc.phase with
    | wr =>
      have hsending : s.cc.st = .sending := by
        by_contra hne
        cases hp.symm.trans (hinv.phaseRd hst hne)
      have := h.wrWrites hsending hp
      omega
    | rd =>
      have := h.setWrites hst hfailed hk hp
      omega

/-- No get makes more inner attempts than its budget (42_command_channel R148). -/
theorem reads_le_of_get (hk : s.cc.kind = .get) : count isRead s ≤ 4 := by
  have hp : s.cc.phase = .rd := hinv.getPhase hst hk
  by_cases hin : s.cc.st.inGet = true
  · have hpos := hinv.rcntPos hin hp
    have hopen : openRead s ≤ 1 := by unfold openRead; split <;> omega
    have := ((accounts_iff_inner hin hp).1 h).getReads hk
    omega
  · cases hs : s.cc.st with
    | idle => exact absurd hs hst
    | retryOuter => cases hk.symm.trans (hinv.outerSet hs)
    | success => exact (h.getDone hs hk).2
    | failed => exact (h.getFailed hs hk).le
    | sending | awaitingSignal | polling | validating | retryInner => simp [hs, SeqState.inGet] at hin

end

/-- Settles O53: the outer attempts are bounded by the write budget, the inner ones by the read budget of each; every
READ request has at most one wait, every wait at most one poll, and an exchange is one of the three. -/
theorem transactionBounds : Obligations.TransactionBounds := by
  intro s hinv h hst exchanges
  have hex : exchanges = count isWrite s + count isRead s + count isPoll s := countP_exchanges s.cc.seq
  have hwaits := h.waits hst
  have hpolls := h.polls hst
  refine ⟨fun hk => ?_, fun hk => ?_, fun hfailed hk => (h.setFailed hfailed hk).1⟩
  · have hw := writes_le_of_set hinv h hst hk
    have hr := h.setReads hst hk
    omega
  · have hw := h.getWrites hst hk
    have hr := reads_le_of_get hinv h hst hk
    omega

/-! ### Every step of a busy block lowers the measure (42_command_channel R149) -/

/-- A move inside the outer attempt under way. -/
theorem busyMeasure_lt_of_inner {s t : State} (hs : s.cc.st ≠ .idle) (hk : t.cc.kind = s.cc.kind)
    (hw : t.cc.wcnt = s.cc.wcnt) (hd : t.disp = s.disp) (h : innerMeasure t < innerMeasure s) :
    busyMeasure t < busyMeasure s := by
  have hset : setMeasure t < setMeasure s := by
    unfold setMeasure
    rw [hk, hw]
    cases s.cc.kind with
    | set => exact Nat.add_lt_add_left h _
    | get => exact h
  have hleft : setsLeft t = setsLeft s := by rw [setsLeft, setsLeft, hd]
  unfold busyMeasure
  rw [if_neg hs, hleft]
  split <;> omega

theorem busyMeasure_of_idle {s : State} (h : s.cc.st = .idle) : busyMeasure s = 2400 * setsLeft s := by
  simp [busyMeasure, h]

theorem busyMeasure_of_set {s : State} (h : s.cc.st ≠ .idle) (hk : s.cc.kind = .set) :
    busyMeasure s = 1 + (s.cc.wcnt.toNat * 64 + innerMeasure s) + 2400 * setsLeft s := by
  simp [busyMeasure, h, setMeasure, hk]

/-- The whole of one set fits into what one pending set counts for. -/
theorem busyMeasure_beginDispSet {s : State} {r : SetReq} {rest : List SetReq} {allOk : Bool} (hc : s.cfg.wf = true) :
    busyMeasure (beginDispSet r { s with disp := some ⟨rest, allOk⟩ }) = 2368 + 2400 * rest.length := by
  rw [busyMeasure_of_set (by simp [beginDispSet]) rfl]
  have hw : (beginDispSet r { s with disp := some ⟨rest, allOk⟩ }).cc.wcnt.toNat = 36 := toNat_wBudget hc
  rw [hw]
  rfl

theorem busyMeasure_stepRetryInner {s : State} (hst : s.cc.st = .retryInner) (hpos : 1 ≤ s.cc.rcnt.toNat) :
    busyMeasure (stepRetryInner s) < busyMeasure s := by
  have hidle : s.cc.st ≠ .idle := by simp [hst]
  have hs : innerMeasure s = s.cc.rcnt.toNat * 8 + 2 := by simp [innerMeasure, hst]
  by_cases hlast : s.cc.rcnt - 1 = 0
  · cases hk : s.cc.kind with
    | get =>
      rw [stepRetryInner_get hlast hk]
      exact busyMeasure_lt_of_inner hidle rfl rfl rfl (by rw [hs]; exact Nat.succ_pos _)
    | set =>
      rw [stepRetryInner_set hlast hk]
      exact busyMeasure_lt_of_inner hidle rfl rfl rfl (by rw [hs]; change 1 < _; omega)
  · rw [stepRetryInner_again hlast]
    have ht : innerMeasure (sendAgain .rd (decRcnt s)) = (s.cc.rcnt - 1).toNat * 8 + 6 := rfl
    refine busyMeasure_lt_of_inner hidle rfl rfl rfl ?_
    rw [hs, ht]
    bv_omega

theorem busyMeasure_stepRetryOuter {s : State} (hst : s.cc.st = .retryOuter) (hk : s.cc.kind = .set)
    (hpos : 1 ≤ s.cc.wcnt.toNat) : busyMeasure (stepRetryOuter s) < busyMeasure s := by
  have hs := busyMeasure_of_set (s := s) (by simp [hst]) hk
  have hpred : (s.cc.wcnt - 1).toNat = s.cc.wcnt.toNat - 1 := by bv_omega
  by_cases hlast : s.cc.wcnt - 1 = 0
  · rw [stepRetryOuter_last hlast, busyMeasure_of_set (s := goto .failed (decWcnt s)) nofun hk, hs]
    change 1 + ((s.cc.wcnt - 1).toNat * 64 + 0) + 2400 * setsLeft s < _
    omega
  · rw [stepRetryOuter_again hlast, busyMeasure_of_set (s := sendAgain .wr (decWcnt s)) nofun hk, hs]
    change 1 + ((s.cc.wcnt - 1).toNat * 64 + 63) + 2400 * setsLeft s < _
    have h1 : innerMeasure s = 1 := by simp [innerMeasure, hst]
    omega

/-- The end of a set starts none and drops none. -/
theorem setsLeft_stepEnd (ok : Bool) (s : State) : setsLeft (stepEnd ok s) = setsLeft s := by
  unfold stepEnd
  cases s.cc.kind with
  | get => cases ok <;> rfl
  | set =>
    unfold endSet
    rcases hd : s.disp with _ | ⟨_ | _, _⟩ <;> simp [setsLeft, hd, endHostSet, endDisp, endDispSet]

theorem busyMeasure_stepEnd {s : State} (ok : Bool) (hst : s.cc.st ≠ .idle) :
    busyMeasure (stepEnd ok s) < busyMeasure s := by
  have hidle : (stepEnd ok s).cc.st = .idle := congrArg Channel.st (stepEnd_cc ok s)
  rw [busyMeasure_of_idle hidle, setsLeft_stepEnd, busyMeasure, if_neg hst]
  omega

/-- Settles O54: in the `Idle` between two sets a pending set becomes one under way; a step of the inner get lowers the
inner measure; a retry spends an attempt; the end of a transaction leaves nothing but the pending sets. -/
theorem busyStepLowersMeasure : Obligations.BusyStepLowersMeasure := by
  intro s t hinv hr hb hstep
  have hsample : busyMeasure (takeStart (sample s)) = busyMeasure s := busyMeasure_congr rfl rfl
  cases step_next_cases hstep with
  | reset hreset => cases hr.symm.trans hreset
  | rest _ hfree | op _ hfree | reserved _ hfree => cases hb.symm.trans hfree
  | nextSet _ hst r rest allOk hd =>
    rw [busyMeasure_beginDispSet (s := takeStart (sample s)) hinv.cfgWf, busyMeasure_of_idle hst]
    simp [setsLeft, hd]
    omega
  | write _ hst hp =>
    have hk := kind_eq_set_of_wr hinv (by simp [hst]) hp
    refine busyMeasure_lt_of_inner (by simp [hst]) rfl rfl rfl ?_
    simp [innerMeasure, hst, hp, toNat_rBudget hinv.cfgWf]
  | read _ hst hp => exact busyMeasure_lt_of_inner (by simp [hst]) rfl rfl rfl (by simp [innerMeasure, hst, hp])
  | await _ hst =>
    refine busyMeasure_lt_of_inner (by simp [hst]) rfl rfl rfl ?_
    cases hrdy : (sample s).rdy <;> simp [innerMeasure, hst, -sample_rdy, hrdy]
  | poll _ hst => exact busyMeasure_lt_of_inner (by simp [hst]) rfl rfl rfl (by simp [innerMeasure, hst])
  | reject _ hst => exact busyMeasure_lt_of_inner (by simp [hst]) rfl rfl rfl (by simp [innerMeasure, hst])
  | accept _ hst =>
    refine busyMeasure_lt_of_inner (by simp [hst]) rfl rfl rfl ?_
    rcases afterAccept_cases (takeResponse (takeStart (sample s))) with ha | ⟨ha, _⟩ <;> simp [ha, innerMeasure, hst]
  | retryInner _ hst =>
    rw [← hsample]
    exact busyMeasure_stepRetryInner hst
      (hinv.rcntPos (by simp [hst, SeqState.inGet]) (hinv.phaseRd (by simp [hst]) (by simp [hst])))
  | retryOuter _ hst =>
    have hk := hinv.outerSet hst
    rw [← hsample]
    exact busyMeasure_stepRetryOuter hst hk (hinv.wcntPos (by simp [hst]) (by simp [hst]) hk)
  | success _ hst | failed _ hst =>
    rw [← hsample]
    exact busyMeasure_stepEnd _ (by simp [hst])

end Sys2Proof.Machine

namespace Sys2Proof.Machine

/-! ### The input lines (41_transport_adapter R123, 70_reset_and_hazards R240)

Every step that is no reset takes one entry of the lines, in `sample`; nothing else touches them. -/

@[simp] theorem stepRetryInner_lines (s : State) : (stepRetryInner s).lines = s.lines := by
  unfold stepRetryInner
  split
  · rfl
  · cases s.cc.kind <;> rfl

@[simp] theorem stepRetryOuter_lines (s : State) : (stepRetryOuter s).lines = s.lines := by
  unfold stepRetryOuter
  split <;> rfl

@[simp] theorem stepEnd_lines (ok : Bool) (s : State) : (stepEnd ok s).lines = s.lines := by
  unfold stepEnd
  cases s.cc.kind with
  | get => cases ok <;> rfl
  | set =>
    unfold endSet
    rcases s.disp with _ | ⟨_ | _, _⟩ <;> rfl

@[simp] theorem stepAtRest_lines (s : State) : (stepAtRest s).lines = s.lines := by
  unfold stepAtRest; cases s.host <;> rfl

theorem HostStep.lines_eq {i : Instr} {s t : State} (h : HostStep i s t) : t.lines = s.lines := by
  cases h <;> rfl

theorem StepCase.lines_eq_tail {s t : State} (h : StepCase s t) : t.lines = s.lines.tail := by
  cases h with
  | rest => exact stepAtRest_lines _
  | op _ _ _ _ _ _ ht => exact ht.lines_eq
  | reset | reserved | nextSet | write | read | await | poll | reject | accept => rfl
  | retryInner => exact stepRetryInner_lines _
  | retryOuter => exact stepRetryOuter_lines _
  | success | failed => exact stepEnd_lines _ _

theorem NoReset.now {s : State} (h : NoReset s) : (linesNow s).reset = false := by
  cases hl : s.lines with
  | nil => simp [linesNow, hl]
  | cons l ls => simpa [linesNow, hl] using h l (by simp [hl])

theorem NoReset.of_tail {s t : State} (h : NoReset s) (hl : t.lines = s.lines.tail) : NoReset t := fun l hmem =>
  h l (List.mem_of_mem_tail (hl ▸ hmem))

theorem noReset_of_step {s t : State} (h : NoReset s) (hstep : step s = .next t) : NoReset t :=
  h.of_tail (step_next_cases hstep).lines_eq_tail

/-! ### A busy block ends its operation (42_command_channel R149, 70_reset_and_hazards R251) -/

/-- The result of an operation that went through the channel is reported. -/
def Reported (t : State) : Prop := t.done = true ∧ (t.res.st = .ok ∨ t.res.st = .fail)

/-- The end of a transaction reports a status, unless a set of the display operation is still to start. -/
theorem stepEnd_reported {ok : Bool} {s : State} (hfree : (stepEnd ok s).busy = false) : Reported (stepEnd ok s) := by
  unfold stepEnd at *
  cases hk : s.cc.kind with
  | get => cases ok <;> simp [endGet, Reported]
  | set =>
    simp only [hk, endSet] at *
    rcases hd : s.disp with _ | ⟨_ | ⟨r, rest⟩, allOk⟩
    · cases ok <;> simp [endHostSet, Reported]
    · cases allOk <;> cases ok <;> simp [endDisp, Reported]
    · simp [hd, endDispSet, State.busy] at hfree

theorem stepRetryInner_st_ne_idle (s : State) : (stepRetryInner s).cc.st ≠ .idle := by
  unfold stepRetryInner
  split
  · simp
  · cases s.cc.kind <;> simp

theorem stepRetryOuter_st_ne_idle (s : State) : (stepRetryOuter s).cc.st ≠ .idle := by
  unfold stepRetryOuter
  split <;> simp

/-- Only the end of a transaction frees the block. -/
theorem reported_of_step {s t : State} (hr : (linesNow s).reset = false) (hb : s.busy = true)
    (hstep : step s = .next t) (hfree : t.busy = false) : Reported t := by
  have hidle : t.cc.st = .idle := (busy_eq_false.1 hfree).1
  cases step_next_cases hstep with
  | reset hreset => cases hr.symm.trans hreset
  | rest _ hb' | op _ hb' | reserved _ hb' => cases hb.symm.trans hb'
  | nextSet | read | poll | reject => cases hidle
  | write _ hst => cases hst.symm.trans hidle
  | await => cases hrdy : (sample s).rdy <;> simp [-sample_rdy, hrdy] at hidle
  | accept => rcases afterAccept_cases (takeResponse (takeStart (sample s))) with ha | ⟨ha, _⟩ <;> simp [ha] at hidle
  | retryInner => exact absurd hidle (stepRetryInner_st_ne_idle _)
  | retryOuter => exact absurd hidle (stepRetryOuter_st_ne_idle _)
  | success | failed => exact stepEnd_reported hfree

theorem run_succ_of_step {s t : State} (h : step s = .next t) (k : Nat) :
    Sys2Proof.core.run (k + 1) s = Sys2Proof.core.run k t := by
  have hcore : Sys2Proof.core.step s = .next t := h
  simp only [Host.Core.run, hcore]

/-- Settles O55, by induction on the measure: a step of a busy block has a next state and lowers the measure, and the
step that frees the block reports the result. -/
theorem everyTransactionEnds : Obligations.EveryTransactionEnds := by
  intro s hinv hreset hb
  induction hm : busyMeasure s using Nat.strong_induction_on generalizing s with
  | _ m ih =>
    subst hm
    obtain ⟨t, hstep⟩ := legalStepNeverStops s hinv
    have hlt := busyStepLowersMeasure s t hinv hreset.now hb hstep
    cases hfree : t.busy with
    | false =>
      obtain ⟨hdone, hst⟩ := reported_of_step hreset.now hb hstep hfree
      exact ⟨1, t, by omega, run_succ_of_step hstep 0, hfree, (busy_eq_false.1 hfree).1, hdone, hst⟩
    | true =>
      obtain ⟨k, u, hk, hrun, hend⟩ :=
        ih _ hlt t (stepKeepsInv s t hinv hstep) (noReset_of_step hreset hstep) hfree rfl
      exact ⟨k + 1, u, by omega, (run_succ_of_step hstep k).trans hrun, hend⟩

end Sys2Proof.Machine

namespace Sys2Proof.Machine

/-! ### Admission (42_command_channel R134) -/

theorem admitGet_of_none {s : State} (h : endpoint? s.cfg s.req.ep = none) : admitGet s = .error .errArg := by
  simp [admitGet, h]

theorem admitGet_of_sub_ne {s : State} {e : Endpoint} (h : endpoint? s.cfg s.req.ep = some e)
    (hsub : s.req.subEn ≠ e.hasSub) : admitGet s = .error .errArg := by
  simp [admitGet, h, hsub]

theorem admitGet_of_sub_eq {s : State} {e : Endpoint} (h : endpoint? s.cfg s.req.ep = some e)
    (hsub : s.req.subEn = e.hasSub) : admitGet s = .ok e := by
  simp [admitGet, h, hsub]

/-- `CC.SET` makes the checks of `CC.GET` first. -/
theorem admitSet_of_admitGet_error {s : State} {st : Status} (h : admitGet s = .error st) :
    admitSet s = .error st := by
  simp [admitSet, h]

/-- The checks on the payload, once the endpoint and the sub-identifier have passed. -/
theorem admitSet_of_admitGet_ok {s : State} {e : Endpoint} (h : admitGet s = .ok e) :
    admitSet s =
      if s.cfg.pcap < (wantOf e s.req.sub (dinBytes s)).length then .error .errCap
      else if e.width < (wantOf e s.req.sub (dinBytes s)).length then .error .errArg
      else .ok (wantOf e s.req.sub (dinBytes s)) := by
  simp [admitSet, h]

theorem length_wantOf (e : Endpoint) (sub : Byte) (value : List Byte) :
    (wantOf e sub value).length = (if e.hasSub then 1 else 0) + value.length := by
  unfold wantOf
  split <;> simp [Nat.add_comm]

theorem exec_ccSet (s : State) : exec .ccSet s = execCcSet s := rfl

theorem exec_ccGet (s : State) : exec .ccGet s = execCcGet s := rfl

section
variable {s : State} (hb : s.busy = false)
include hb

theorem raises_ccSet {st : Status} (h : admitSet s = .error st) : Raises .ccSet s st :=
  raises_of_meaning (fun _ => rfl) hb (by simp only [h])

theorem raises_ccGet {st : Status} (h : admitGet s = .error st) : Raises .ccGet s st :=
  raises_of_meaning (fun _ => rfl) hb (by simp only [h])

theorem exec_ccSet_of_ok {want : List Byte} (h : admitSet s = .ok want) :
    exec .ccSet s = .next (beginSet s.req.ep s.req.subEn want { s with disp := none }) := by
  rw [exec_ccSet, execCcSet, hostOp_of_free hb]
  simp only [h]

theorem exec_ccGet_of_ok {e : Endpoint} (h : admitGet s = .ok e) :
    exec .ccGet s = .next (beginGet s.req.ep s.req.subEn { s with disp := none }) := by
  rw [exec_ccGet, execCcGet, hostOp_of_free hb]
  simp only [h]

end

/-- Settles O24: each check in turn decides what `admitSet` and `admitGet` answer. -/
theorem admissionChecksInOrder : Obligations.AdmissionChecksInOrder := by
  intro s hb
  have hboth (h : admitGet s = .error .errArg) : Raises .ccSet s .errArg ∧ Raises .ccGet s .errArg :=
    ⟨raises_ccSet hb (admitSet_of_admitGet_error h), raises_ccGet hb h⟩
  refine ⟨fun he => hboth (admitGet_of_none he), ?_⟩
  intro e he len
  have hlen : (wantOf e s.req.sub (dinBytes s)).length = len := by rw [length_wantOf, length_dinBytes]
  refine ⟨fun hsub => hboth (admitGet_of_sub_ne he hsub), fun hsub hcap => ?_, fun hsub hcap hwidth => ?_⟩
  · refine raises_ccSet hb ?_
    rw [admitSet_of_admitGet_ok (admitGet_of_sub_eq he hsub), hlen]
    exact if_pos hcap
  · refine raises_ccSet hb ?_
    rw [admitSet_of_admitGet_ok (admitGet_of_sub_eq he hsub), hlen, if_pos hwidth]
    exact if_neg (Nat.not_lt.2 hcap)

/-! ### The start of a transaction (42_command_channel R135) -/

theorem nextMsgid_of_some {s : State} {ep : BitVec 7} {e : Endpoint} (h : endpoint? s.cfg ep = some e) :
    nextMsgid s ep = if e.msgid then s.msgid + 1 else s.msgid := by
  simp [nextMsgid, h]

theorem onlyChannel_beginSet (ep : BitVec 7) (subEn : Bool) (want : List Byte) (s : State) :
    OnlyChannel s (beginSet ep subEn want { s with disp := none }) := by
  constructor <;> intros <;> rfl

theorem onlyChannel_beginGet (ep : BitVec 7) (subEn : Bool) (s : State) :
    OnlyChannel s (beginGet ep subEn { s with disp := none }) := by
  constructor <;> intros <;> rfl

/-- A payload that fits the frame is kept whole, and so is its length. -/
theorem startsSet_beginSet {s : State} {want : List Byte} (ep : BitVec 7) (subEn : Bool)
    (h : want.length ≤ s.cfg.pcap) (d : Option DispRun) :
    StartsSet s (beginSet ep subEn want { s with disp := d }) ep subEn want where
  st := rfl
  kind := rfl
  phase := rfl
  ep := rfl
  subEn := rfl
  sub := rfl
  want := take_fit h
  wlen := Nat.mod_eq_of_lt (Nat.lt_succ_of_le (h.trans (pcap_le _)))
  wcnt := rfl
  seq := rfl
  mid := rfl
  rcnt := rfl
  got := rfl

theorem wantOf_eq_append (e : Endpoint) (sub : Byte) (value : List Byte) :
    wantOf e sub value = (if e.hasSub then [sub] else []) ++ value := by
  unfold wantOf
  split <;> rfl

/-- Settles O25: an admitted set is `beginSet` of the payload with the sub-identifier first. -/
theorem admittedSetStarts : Obligations.AdmittedSetStarts := by
  intro s e hb he hsub value hcap hwidth
  have hvalue : wantOf e s.req.sub (dinBytes s) = value := wantOf_eq_append _ _ _
  have hadmit : admitSet s = .ok value := by
    rw [admitSet_of_admitGet_ok (admitGet_of_sub_eq he hsub), hvalue, if_neg (Nat.not_lt.2 hwidth)]
    exact if_neg (Nat.not_lt.2 hcap)
  exact ⟨_, exec_ccSet_of_ok hb hadmit, startsSet_beginSet _ _ hcap _, onlyChannel_beginSet _ _ _ _, rfl, rfl,
    nextMsgid_of_some (s := { s with disp := none }) he⟩

/-- Settles O26: an admitted get is `beginGet`. -/
theorem admittedGetStarts : Obligations.AdmittedGetStarts := by
  intro s e hb he hsub
  exact ⟨_, exec_ccGet_of_ok hb (admitGet_of_sub_eq he hsub), onlyChannel_beginGet _ _ _, rfl, rfl, rfl, rfl, rfl, rfl,
    rfl, rfl, rfl, rfl, rfl, rfl, rfl, rfl, rfl, nextMsgid_of_some (s := { s with disp := none }) he⟩

/-! ### The frames (42_command_channel R136, R137, R140) -/

/-- A whole-buffer write of at most `N` bytes leaves what lies at `N` and beyond as it was (20_memory R55). -/
theorem read_ofBytes_outside {m : Memory} {bs : List Byte} {n a : Nat} (hm : m.wf n = true) (hbs : bs.length ≤ n)
    (ha : n ≤ a) : (Memory.ofBytes bs).read a = m.read a :=
  (read_of_wf (wf_ofBytes hbs) ha).trans (read_of_wf hm ha).symm

/-- The exchange of a frame, apart from where it leads. -/
theorem onlyExchange_exchange {s : State} {tx : List Byte} (h : Inv s) (htx : tx.length = s.cfg.n) :
    OnlyExchange s (exchange (loadTx tx s)) := by
  constructor
  case outsideTx => exact fun a => read_ofBytes_outside h.txWf htx.le
  case outsideRx => exact fun a => read_ofBytes_outside h.rxWf (length_answer _).le
  all_goals intros; rfl

/-- What the exchange of the frame `tx` puts into the buffers and into `CC.seq`, from `s` to `t`. -/
structure Exchanged (s t : State) (tx : List Byte) : Prop where
  tx     : t.txbuf.bytes s.cfg.n = tx
  listed : ∀ rx rest, s.answers = rx :: rest → rx.length = s.cfg.n → t.rxbuf.bytes s.cfg.n = rx ∧ t.answers = rest
  seq    : t.cc.seq = s.cc.seq ++ [.exch (t.txbuf.bytes s.cfg.n) (t.rxbuf.bytes s.cfg.n)]

theorem exchanged_exchange {s : State} {tx : List Byte} (htx : tx.length = s.cfg.n) :
    Exchanged s (exchange (loadTx tx s)) tx where
  tx := bytes_ofBytes htx
  listed rx rest hl hlen := by
    refine ⟨(exchange_rxbuf_bytes (loadTx tx s)).trans (answer_of_listed hl hlen), ?_⟩
    rw [exchange_answers, loadTx_answers, hl]
    rfl
  seq := by
    have hrx : (exchange (loadTx tx s)).rxbuf.bytes s.cfg.n = answer s := exchange_rxbuf_bytes (loadTx tx s)
    rw [hrx]
    rfl

theorem length_writeFrame {s : State} (h : Inv s) :
    (frameOf s.cfg true s.cc.ep (writePayload s)).length = s.cfg.n :=
  length_frameOf (three_le_n h.cfgWf) (length_writePayload_le h)

theorem length_readFrame {s : State} (h : Inv s) :
    (frameOf s.cfg false s.cc.ep (readPayload s)).length = s.cfg.n :=
  length_frameOf (three_le_n h.cfgWf) (length_readPayload_le h.cfgWf)

theorem exchanged_stepWrite {s : State} (h : Inv s) :
    Exchanged s (stepWrite s) (frameOf s.cfg true s.cc.ep (writePayload s)) :=
  { exchanged_exchange (length_writeFrame h) with }

theorem exchanged_stepRead {s : State} (h : Inv s) :
    Exchanged s (stepRead s) (frameOf s.cfg false s.cc.ep (readPayload s)) :=
  { exchanged_exchange (length_readFrame h) with }

theorem exchanged_stepPoll {s : State} (h : Inv s) : Exchanged s (stepPoll s) (pollFrame s.cfg) :=
  { exchanged_exchange (length_pollFrame (three_le_n h.cfgWf)) with }

theorem onlyExchange_stepWrite {s : State} (h : Inv s) : OnlyExchange s (stepWrite s) :=
  { onlyExchange_exchange h (length_writeFrame h) with }

theorem onlyExchange_stepRead {s : State} (h : Inv s) : OnlyExchange s (stepRead s) :=
  { onlyExchange_exchange h (length_readFrame h) with }

theorem onlyExchange_stepPoll {s : State} (h : Inv s) : OnlyExchange s (stepPoll s) :=
  { onlyExchange_exchange h (length_pollFrame (three_le_n h.cfgWf)) with }

/-- A frame of a legal configuration, written out (40_frame_codec R103). -/
theorem frameOf_eq {c : Config} (hc : c.wf = true) (w : Bool) (ep : BitVec 7) (pl : List Byte) :
    frameOf c w ep pl =
      let body := 0x80 :: ((if w then 0x80 else 0x00) ||| ep.setWidth 8) ::
        (pl ++ List.replicate (c.n - 3 - pl.length) 0x00)
      body ++ [crc8 c body] := by
  rw [frameOf, frameBody_eq (sync_eq hc)]
  rfl

/-- Settles O29: every WRITE row's meaning in its own state is `stepWrite`. -/
theorem writeFrameIsSent : Obligations.WriteFrameIsSent := by
  rintro ⟨i, m, ep⟩ hrow s h hm hst hp hep pl body
  dsimp only at hm hep ⊢
  have hexec : exec i s = .next (stepWrite s) := by
    simp only [List.mem_cons, Prod.mk.injEq, List.not_mem_nil, or_false] at hrow
    rcases hrow with ⟨rfl, rfl, rfl⟩ | ⟨rfl, rfl, rfl⟩ | ⟨rfl, rfl, rfl⟩ | ⟨rfl, rfl, rfl⟩ | ⟨rfl, rfl, rfl⟩ |
      ⟨rfl, rfl, rfl⟩ | ⟨rfl, rfl, rfl⟩ | ⟨rfl, rfl, rfl⟩ <;> exact writeFrame_of hm hst hp hep
  obtain ⟨htx, hlisted, hseq⟩ := exchanged_stepWrite h
  refine ⟨_, hexec, htx.trans ?_, hlisted, hseq, (budgets h.cfgWf).2, rfl, hst, onlyExchange_stepWrite h⟩
  rw [frameOf_eq h.cfgWf, hep]
  rfl

/-- The sub-identifier of a READ request, by the descriptor of the endpoint (42_command_channel R133). -/
theorem readPayload_of_some {s : State} {e : Endpoint} (h : endpoint? s.cfg s.cc.ep = some e) :
    readPayload s = if e.hasSub then [s.cc.sub] else [] := by
  simp [readPayload, h]

/-- Settles O30: every READ row's meaning in its own state is `stepRead`, and its endpoint's descriptor says whether a
sub-identifier goes with it. -/
theorem readFrameIsSent : Obligations.ReadFrameIsSent := by
  intro r hrow s h hm hst hp hep pl body
  have hexec : exec r.1 s = .next (stepRead s) := by
    fin_cases hrow <;> exact readFrame_of hm hst hp hep
  obtain ⟨e, he, hsub⟩ : ∃ e, endpoint? s.cfg s.cc.ep = some e ∧ e.hasSub = r.2.2.2 := by
    rw [hep]
    fin_cases hrow <;> simp only [endpoint?, epTable, hm] <;> exact ⟨_, rfl, rfl⟩
  obtain ⟨htx, hlisted, hseq⟩ := exchanged_stepRead h
  refine ⟨_, hexec, htx.trans ?_, hlisted, hseq, rfl, hp, rfl, onlyExchange_stepRead h⟩
  rw [frameOf_eq h.cfgWf, readPayload_of_some he, hsub, hep]
  simp [body, pl]

theorem execPoll_of {s : State} (hst : s.cc.st = .polling) : execPoll s = .next (stepPoll s) := if_pos hst

/-- Settles O31: the poll frame's meaning in `Polling` is `stepPoll`. -/
theorem pollFrameIsSent : Obligations.PollFrameIsSent := by
  intro s h hst body
  obtain ⟨htx, hlisted, hseq⟩ := exchanged_stepPoll h
  refine ⟨_, execPoll_of hst, htx.trans ?_, hlisted, hseq, rfl, rfl, rfl, onlyExchange_stepPoll h⟩
  rw [pollFrame, frameOf_eq h.cfgWf]
  rfl

/-- A state other than the one that sends the frame has no step for it (42_command_channel R147). -/
theorem sends_eq_false {m : ModuleType} {ph : Phase} {ep : BitVec 7} {s : State}
    (h : s.cc.st ≠ .sending ∨ s.cc.phase ≠ ph ∨ s.cc.ep ≠ ep ∨ s.cfg.moduleType ≠ m) : sends m ph ep s = false := by
  rcases h with h | h | h | h <;> simp [sends, h]

/-- The meaning of a frame row, by its direction (30_encoding R76). -/
def sendFrame (m : ModuleType) (ph : Phase) (ep : BitVec 7) (s : State) : Host.Outcome State Fault Refusal :=
  match ph with
  | .wr => writeFrame m ep s
  | .rd => readFrame m ep s

theorem sendFrame_refused {m : ModuleType} {ph : Phase} {ep : BitVec 7} {s : State} (h : sends m ph ep s = false) :
    sendFrame m ph ep s = .refused .noStep := by
  cases ph with
  | wr => simp [sendFrame, writeFrame, h]
  | rd => simp [sendFrame, readFrame, h]

/-- Settles O32: the meaning of every frame row asks for the state that sends it, and refuses otherwise. -/
theorem noFrameOutOfTurn : Obligations.NoFrameOutOfTurn := by
  refine ⟨fun s hst => if_neg hst, fun r hrow s h => ?_⟩
  have hexec : exec r.1 s = sendFrame r.2.1 r.2.2.1 r.2.2.2 s := by
    fin_cases hrow <;> rfl
  exact hexec.trans (sendFrame_refused (sends_eq_false h))

end Sys2Proof.Machine

namespace Sys2Proof.Machine

/-! ### The step of each sequencer state that sends no frame (42_command_channel R147) -/

section
variable {s : State} (hr : (linesNow s).reset = false)
include hr

theorem step_validating (hc : s.cfg.wf = true) (hst : s.cc.st = .validating) :
    step s = .next (if accept s then
      goto (afterAccept (takeResponse (takeStart (sample s)))) (takeResponse (takeStart (sample s)))
      else goto .retryInner (takeStart (sample s))) := by
  have hin : responseInside (takeStart (sample s)) = true := responseInside_of_wf hc
  simp [step, blockStep, hr, hst, stepValidate, hin, accept_sample]

theorem step_retryInner (hst : s.cc.st = .retryInner) : step s = .next (stepRetryInner (takeStart (sample s))) := by
  simp [step, blockStep, hr, hst]

theorem step_retryOuter (hst : s.cc.st = .retryOuter) : step s = .next (stepRetryOuter (takeStart (sample s))) := by
  simp [step, blockStep, hr, hst]

end

/-- A step that sends no frame starts from the state that has sampled the input lines and taken the start pulse. -/
theorem NoExchange.of_sampled {s t : State} (h : NoExchange (takeStart (sample s)) t) : NoExchange s t := { h with }

theorem SameTransaction.of_sampled {s t : State} (h : SameTransaction (takeStart (sample s)) t) :
    SameTransaction s t := { h with }

/-! ### The wait (42_command_channel R138) -/

theorem noExchange_stepAwait (s : State) : NoExchange s (stepAwait s) := by
  constructor <;> intros <;> rfl

theorem sameTransaction_stepAwait (s : State) : SameTransaction s (stepAwait s) := by
  constructor <;> rfl

/-- Settles O33: the step is `stepAwait` of the state in which the environment has moved. -/
theorem waitTakesTheLatch : Obligations.WaitTakesTheLatch := by
  intro s hr hst ready
  have hrdy : (takeStart (sample s)).rdy = ready := sample_rdy s
  refine ⟨_, step_awaitingSignal hr hst, ?_, stepAwait_rdy _, ?_, rfl, rfl, rfl, rfl, rfl, rfl,
    (noExchange_stepAwait _).of_sampled, (sameTransaction_stepAwait _).of_sampled⟩
  · rw [stepAwait_cc_st, hrdy]
  · rw [stepAwait_seq, hrdy]
    rfl

/-! ### The validation (42_command_channel R141, R142) -/

theorem ccHasSub_of_some {s : State} {e : Endpoint} (h : endpoint? s.cfg s.cc.ep = some e) :
    ccHasSub s = e.hasSub := by
  simp [ccHasSub, h]

theorem ccWidth_of_some {s : State} {e : Endpoint} (h : endpoint? s.cfg s.cc.ep = some e) : ccWidth s = e.width := by
  simp [ccWidth, h]

/-- The command byte of a response is the endpoint code alone. -/
theorem expectedCmd_eq (s : State) : expectedCmd s = s.cc.ep.setWidth 8 := by
  simp [expectedCmd, cmdByte_eq_or]

/-- The three checks on a response. -/
theorem accept_iff {s : State} {e : Endpoint} (hc : s.cfg.wf = true) (he : endpoint? s.cfg s.cc.ep = some e) :
    accept s = true ↔
      (s.cfg.rxCrcCheck = false ∨ crc8 s.cfg (s.rxbuf.bytes (s.cfg.n - 1)) = s.rxbuf.read (s.cfg.n - 1)) ∧
        s.rxbuf.read s.cfg.cmdOffset.toNat = s.cc.ep.setWidth 8 ∧
        (e.hasSub = false ∨ s.rxbuf.read 2 = s.cc.sub) := by
  have hn : 1 ≤ s.cfg.n := (three_le_n hc).trans' (by decide)
  rw [← trailerOk_bytes s.rxbuf hn]
  simp [accept, ccHasSub_of_some he, expectedCmd_eq, and_assoc]

theorem afterAccept_get {s : State} (hk : s.cc.kind = .get) : afterAccept s = .success := by
  simp [afterAccept, hk]

theorem afterAccept_set {s : State} (hk : s.cc.kind = .set) :
    afterAccept s = if readBackEqual s then .success else .retryOuter := by
  simp [afterAccept, hk]

theorem noExchange_goto (st : SeqState) (s : State) : NoExchange s (goto st s) := by
  constructor <;> intros <;> rfl

theorem sameTransaction_goto (st : SeqState) (s : State) : SameTransaction s (goto st s) := by
  constructor <;> rfl

theorem noExchange_accepted (st : SeqState) (s : State) : NoExchange s (goto st (takeResponse s)) := by
  constructor <;> intros <;> rfl

theorem sameTransaction_accepted (st : SeqState) (s : State) : SameTransaction s (goto st (takeResponse s)) := by
  constructor <;> rfl

/-- The comparison of a set, on the response just taken. -/
theorem readBackEqual_takeResponse {s : State} {e : Endpoint} (he : endpoint? s.cfg s.cc.ep = some e) :
    readBackEqual (takeResponse s) = true ↔
      (payloadOf s.cfg (s.rxbuf.bytes s.cfg.n)).take e.width = pad (writePayload s) e.width := by
  have hw : ccWidth (takeResponse s) = e.width := ccWidth_of_some he
  simp [readBackEqual, hw, writePayload]

/-- Settles O34: the step is a rejection or an acceptance by `accept_iff`, and an acceptance leads where the kind and
the comparison say. -/
theorem responseIsValidated : Obligations.ResponseIsValidated := by
  intro s e h hr hst he rx accepted payload intended equal
  have haccept : accept s = true ↔ accepted := accept_iff h.cfgWf he
  have hequal : readBackEqual (takeResponse (takeStart (sample s))) = true ↔ equal :=
    readBackEqual_takeResponse (s := takeStart (sample s)) he
  have hstep := step_validating hr h.cfgWf hst
  cases ha : accept s with
  | false =>
    have hnot : ¬ accepted := by simp [← haccept, ha]
    rw [if_neg (by simp [ha])] at hstep
    exact ⟨_, hstep, (noExchange_goto _ _).of_sampled, (sameTransaction_goto _ _).of_sampled, rfl, rfl, rfl, rfl, rfl,
      rfl, sample_rdy s, fun _ => ⟨rfl, rfl⟩, fun h' => absurd h' hnot, fun h' => absurd h' hnot,
      fun h' => absurd h' hnot, fun h' => absurd h' hnot⟩
  | true =>
    rw [if_pos ha] at hstep
    refine ⟨_, hstep, (noExchange_accepted _ _).of_sampled, (sameTransaction_accepted _ _).of_sampled, rfl, rfl, rfl,
      rfl, rfl, rfl, sample_rdy s, fun h' => absurd (haccept.1 ha) h', fun _ => rfl, fun _ hk => afterAccept_get hk,
      fun _ hk heq => ?_, fun _ hk hne => ?_⟩
    · exact (afterAccept_set (s := takeResponse (takeStart (sample s))) hk).trans (if_pos (hequal.2 heq))
    · exact (afterAccept_set (s := takeResponse (takeStart (sample s))) hk).trans (if_neg (mt hequal.1 hne))

/-! ### The retries (42_command_channel R143, R144) -/

theorem noExchange_stepRetryInner (s : State) : NoExchange s (stepRetryInner s) := by
  unfold stepRetryInner
  split
  · constructor <;> intros <;> rfl
  · cases s.cc.kind <;> constructor <;> intros <;> rfl

theorem sameTransaction_stepRetryInner (s : State) : SameTransaction s (stepRetryInner s) := by
  unfold stepRetryInner
  split
  · constructor <;> rfl
  · cases s.cc.kind <;> constructor <;> rfl

/-- What spending a read attempt leaves, whatever it leads to. -/
theorem stepRetryInner_leaves (s : State) :
    (stepRetryInner s).cc.rcnt = s.cc.rcnt - 1 ∧ (stepRetryInner s).cc.wcnt = s.cc.wcnt ∧
      (stepRetryInner s).cc.seq = s.cc.seq ∧ (stepRetryInner s).cc.got = s.cc.got ∧
      (stepRetryInner s).res = s.res ∧ (stepRetryInner s).disp = s.disp := by
  unfold stepRetryInner
  split
  · exact ⟨rfl, rfl, rfl, rfl, rfl, rfl⟩
  · cases s.cc.kind <;> exact ⟨rfl, rfl, rfl, rfl, rfl, rfl⟩

/-- Settles O35: the step is `stepRetryInner`, one outcome at a time. -/
theorem readBudgetIsSpent : Obligations.ReadBudgetIsSpent := by
  intro s hr hst
  obtain ⟨hrcnt, hwcnt, hseq, hgot, hres, hdisp⟩ := stepRetryInner_leaves (takeStart (sample s))
  refine ⟨_, step_retryInner hr hst, (noExchange_stepRetryInner _).of_sampled,
    (sameTransaction_stepRetryInner _).of_sampled, hrcnt, hwcnt, hseq, hgot, hres, hdisp,
    (stepRetryInner_rdy _).trans (sample_rdy s), fun hleft => ?_, fun hlast => ⟨?_, fun hk => ?_, fun hk => ?_⟩⟩
  · rw [stepRetryInner_again (s := takeStart (sample s)) hleft]
    exact ⟨rfl, rfl⟩
  · cases hk : s.cc.kind with
    | get => rw [stepRetryInner_get (s := takeStart (sample s)) hlast hk]; rfl
    | set => rw [stepRetryInner_set (s := takeStart (sample s)) hlast hk]; rfl
  · rw [stepRetryInner_get (s := takeStart (sample s)) hlast hk]
    rfl
  · rw [stepRetryInner_set (s := takeStart (sample s)) hlast hk]
    rfl

theorem noExchange_stepRetryOuter (s : State) : NoExchange s (stepRetryOuter s) := by
  unfold stepRetryOuter
  split <;> constructor <;> intros <;> rfl

theorem sameTransaction_stepRetryOuter (s : State) : SameTransaction s (stepRetryOuter s) := by
  unfold stepRetryOuter
  split <;> constructor <;> rfl

/-- What spending a write attempt leaves, whatever it leads to. -/
theorem stepRetryOuter_leaves (s : State) :
    (stepRetryOuter s).cc.wcnt = s.cc.wcnt - 1 ∧ (stepRetryOuter s).cc.rcnt = s.cc.rcnt ∧
      (stepRetryOuter s).cc.seq = s.cc.seq ∧ (stepRetryOuter s).cc.got = s.cc.got ∧
      (stepRetryOuter s).res = s.res ∧ (stepRetryOuter s).disp = s.disp := by
  unfold stepRetryOuter
  split <;> exact ⟨rfl, rfl, rfl, rfl, rfl, rfl⟩

/-- Settles O36: the step is `stepRetryOuter`, one outcome at a time. -/
theorem writeBudgetIsSpent : Obligations.WriteBudgetIsSpent := by
  intro s hr hst
  obtain ⟨hwcnt, hrcnt, hseq, hgot, hres, hdisp⟩ := stepRetryOuter_leaves (takeStart (sample s))
  refine ⟨_, step_retryOuter hr hst, (noExchange_stepRetryOuter _).of_sampled,
    (sameTransaction_stepRetryOuter _).of_sampled, hwcnt, hrcnt, hseq, hgot, hres, hdisp,
    (stepRetryOuter_rdy _).trans (sample_rdy s), fun hleft => ?_, fun hlast => ?_⟩
  · rw [stepRetryOuter_again (s := takeStart (sample s)) hleft]
    exact ⟨rfl, rfl⟩
  · rw [stepRetryOuter_last (s := takeStart (sample s)) hlast]
    exact ⟨rfl, rfl⟩

/-! ### The end of a transaction (42_command_channel R145, R146) -/

/-- `RV[15:8]` of a channel operation is the kept `MSGID` (30_encoding R81). -/
theorem channelRv_high (s : State) (old : Word) : (drawRv s.free old (channelRv s)).extractLsb' 8 8 = s.cc.mid :=
  BitVec.extractLsb'_append_eq_left

theorem noExchange_endGet (ok : Bool) (s : State) : NoExchange s (endGet ok s) := by
  cases ok <;> constructor <;> intros <;> rfl

theorem noExchange_endHostSet (ok : Bool) (s : State) : NoExchange s (endHostSet ok s) := by
  constructor <;> intros <;> rfl

/-- The state in which the transaction ends, by how it ends. -/
def endState (ok : Bool) : SeqState := if ok then .success else .failed

theorem endState_of {st : SeqState} (h : st = .success ∨ st = .failed) : ∃ ok, st = endState ok :=
  h.elim (fun h => ⟨true, h⟩) (fun h => ⟨false, h⟩)

theorem step_endState {s : State} {ok : Bool} (hr : (linesNow s).reset = false) (hst : s.cc.st = endState ok) :
    step s = .next (stepEnd ok (takeStart (sample s))) := by
  cases ok <;> simp [endState] at hst <;> simp [step, blockStep, hr, hst]

/-- What the end of a get reports and what it leaves, whether it succeeded or failed. -/
theorem endGet_leaves (ok : Bool) (s : State) :
    (endGet ok s).cc = { s.cc with st := .idle } ∧ (endGet ok s).disp = s.disp ∧ (endGet ok s).done = true ∧
      (endGet ok s).msgid = s.msgid ∧ (endGet ok s).res.rv.extractLsb' 8 8 = s.cc.mid ∧
      (endGet ok s).res.st = if ok then .ok else .fail := by
  cases ok <;> exact ⟨rfl, rfl, rfl, rfl, channelRv_high s s.res.rv, rfl⟩

/-- A get that succeeded delivers the first `width` bytes of the response. -/
theorem endGet_delivers {s : State} {e : Endpoint} (h : Inv s) (he : endpoint? s.cfg s.cc.ep = some e) :
    (endGet true s).res.dolen.toNat = e.width ∧ (endGet true s).res.dout.bytes e.width = s.cc.got.take e.width := by
  have hlen : (s.cc.got.take e.width).length = e.width := by
    rw [List.length_take, h.gotLen, Nat.min_eq_left (width_fits h.cfgWf he).2]
  have hfits : e.width ≤ 255 := (width_fits h.cfgWf he).2.trans (pcap_le _)
  have hdel : Delivers (endGet true s) (s.cc.got.take e.width) := by
    rw [← ccWidth_of_some he] at hlen hfits ⊢
    exact delivers_finish (hlen.le.trans hfits) .ok (channelRv s) s
  rwa [Delivers, hlen] at hdel

/-- Settles O37: the step is `endGet` of the state in which the environment has moved. -/
theorem getDeliversItsResult : Obligations.GetDeliversItsResult := by
  intro s e h hr hk he hst
  obtain ⟨ok, hok⟩ := endState_of hst
  have hend : stepEnd ok (takeStart (sample s)) = endGet ok (takeStart (sample s)) := by simp [stepEnd, hk]
  obtain ⟨hcc, hdisp, hdone, hmsgid, hrv, hres⟩ := endGet_leaves ok (takeStart (sample s))
  have hfree : (endGet ok (takeStart (sample s))).busy = false :=
    busy_eq_false.2 ⟨by rw [hcc], by rw [hdisp]; simp [disp_eq_none_of_get h hk]⟩
  refine ⟨_, (step_endState hr hok).trans (congrArg _ hend), hcc, hfree, hdone, (noExchange_endGet _ _).of_sampled,
    hmsgid, hdisp, (endGet_rdy _ _).trans (sample_rdy s), hrv, fun hsuccess => ?_, fun hfailed => ?_⟩
  · cases ok with
    | true => exact ⟨hres, endGet_delivers (inv_takeStart (inv_sample h)) he⟩
    | false => cases hok.symm.trans hsuccess
  · cases ok with
    | true => cases hok.symm.trans hfailed
    | false => exact hres

/-- What the end of a host's set reports and what it leaves, whether it succeeded or failed. -/
theorem endHostSet_leaves (ok : Bool) (s : State) :
    (endHostSet ok s).cc = { s.cc with st := .idle } ∧ (endHostSet ok s).disp = s.disp ∧
      (endHostSet ok s).done = true ∧ (endHostSet ok s).msgid = s.msgid ∧ (endHostSet ok s).rdy = s.rdy ∧
      (endHostSet ok s).res.rv.extractLsb' 8 8 = s.cc.mid ∧ (endHostSet ok s).res.dout = s.res.dout ∧
      (endHostSet ok s).res.dolen = s.res.dolen ∧ (endHostSet ok s).res.st = if ok then .ok else .fail :=
  ⟨rfl, rfl, rfl, rfl, rfl, channelRv_high s s.res.rv, rfl, rfl, rfl⟩

theorem stepEnd_hostSet {s : State} (ok : Bool) (hk : s.cc.kind = .set) (hd : s.disp = none) :
    stepEnd ok s = endHostSet ok s := by
  simp [stepEnd, hk, endSet, hd]

/-- Settles O38: the step is `endHostSet` of the state in which the environment has moved. -/
theorem setReportsItsStatus : Obligations.SetReportsItsStatus := by
  intro s hr hk hd hst
  obtain ⟨ok, hok⟩ := endState_of hst
  obtain ⟨hcc, hdisp, hdone, hmsgid, hrdy, hrv, hdout, hdolen, hres⟩ := endHostSet_leaves ok (takeStart (sample s))
  have hnone : (endHostSet ok (takeStart (sample s))).disp = none := hdisp.trans hd
  have hfree : (endHostSet ok (takeStart (sample s))).busy = false :=
    busy_eq_false.2 ⟨by rw [hcc], by rw [hnone]; rfl⟩
  refine ⟨_, (step_endState hr hok).trans (congrArg _ (stepEnd_hostSet (s := takeStart (sample s)) ok hk hd)), hcc,
    hfree, hdone, (noExchange_endHostSet _ _).of_sampled, hmsgid, hnone, hrdy.trans (sample_rdy s), hrv,
    fun a => congrArg (Memory.read · a) hdout, hdolen, hres.trans ?_⟩
  cases ok <;> simp [hok, endState]

end Sys2Proof.Machine

namespace Sys2Proof.Machine

/-! ### A set that succeeds (42_command_channel R131, R149) -/

section
variable {s : State} (h : Inv s) (hr : (linesNow s).reset = false)
include h hr

theorem step_write (hst : s.cc.st = .sending) (hp : s.cc.phase = .wr) :
    step s = .next (stepWrite (takeStart (sample s))) := by
  have he := h.epKnown (by simp [hst])
  simpa [step, blockStep, hr, hst] using runFetched_write (s := takeStart (sample s)) (sync_eq h.cfgWf) hst hp he

theorem step_read (hst : s.cc.st = .sending) (hp : s.cc.phase = .rd) :
    step s = .next (stepRead (takeStart (sample s))) := by
  have he := h.epKnown (by simp [hst])
  simpa [step, blockStep, hr, hst] using runFetched_read (s := takeStart (sample s)) (sync_eq h.cfgWf) hst hp he

theorem step_poll (hst : s.cc.st = .polling) : step s = .next (stepPoll (takeStart (sample s))) := by
  simpa [step, blockStep, hr, hst] using runFetched_poll (s := takeStart (sample s)) (sync_eq h.cfgWf) hst

end

theorem linesNow_of_cons {s : State} {l : Lines} {ls : List Lines} (h : s.lines = l :: ls) : linesNow s = l := by
  simp [linesNow, h]

/-- The state after the WRITE, the READ and the wait of an outer attempt. -/
def afterWait (s : State) : State :=
  stepAwait (takeStart (sample (stepRead (takeStart (sample (stepWrite (takeStart (sample s))))))))

/-- The first half of an outer attempt: a ready edge by the time of the wait leads to the poll. -/
theorem run_afterWait {s : State} {l1 l2 l3 : Lines} {ls : List Lines} (h : Inv s) (hreset : NoReset s)
    (hst : s.cc.st = .sending) (hp : s.cc.phase = .wr) (hl : s.lines = l1 :: l2 :: l3 :: ls)
    (hready : (s.rdy || l1.ready || l2.ready || l3.ready) = true) :
    (∀ k, Sys2Proof.core.run (k + 3) s = Sys2Proof.core.run k (afterWait s)) ∧ Inv (afterWait s) ∧
      NoReset (afterWait s) ∧ (afterWait s).cc.st = .polling := by
  have h1 := step_write h hreset.now hst hp
  have hinv1 := stepKeepsInv _ _ h h1
  have hreset1 := noReset_of_step hreset h1
  have h2 := step_read hinv1 hreset1.now (by simp [hst]) rfl
  have hinv2 := stepKeepsInv _ _ hinv1 h2
  have hreset2 := noReset_of_step hreset1 h2
  have h3 := step_awaitingSignal hreset2.now rfl
  refine ⟨fun k => ?_, stepKeepsInv _ _ hinv2 h3, noReset_of_step hreset2 h3, ?_⟩
  · rw [run_succ_of_step h1, run_succ_of_step h2, run_succ_of_step h3]
    rfl
  · have hl1 := linesNow_of_cons hl
    have hl2 := linesNow_of_cons (s := stepWrite (takeStart (sample s))) (l := l2) (ls := l3 :: ls) (by simp [hl])
    have hl3 := linesNow_of_cons (s := stepRead (takeStart (sample (stepWrite (takeStart (sample s))))))
      (l := l3) (ls := ls) (by simp [hl])
    refine (stepAwait_polling_iff _).2 ?_
    simpa [hl1, hl2, hl3] using hready

theorem SameTransaction.trans {s t u : State} (h : SameTransaction s t) (h' : SameTransaction t u) :
    SameTransaction s u where
  kind := h'.kind.trans h.kind
  ep := h'.ep.trans h.ep
  subEn := h'.subEn.trans h.subEn
  sub := h'.sub.trans h.sub
  want := h'.want.trans h.want
  wlen := h'.wlen.trans h.wlen
  mid := h'.mid.trans h.mid
  msgid := h'.msgid.trans h.msgid

theorem sameTransaction_stepWrite (s : State) : SameTransaction s (stepWrite s) := by
  constructor <;> rfl

theorem sameTransaction_stepRead (s : State) : SameTransaction s (stepRead s) := by
  constructor <;> rfl

theorem sameTransaction_stepPoll (s : State) : SameTransaction s (stepPoll s) := by
  constructor <;> rfl

theorem sameTransaction_afterWait (s : State) : SameTransaction s (afterWait s) :=
  ((sameTransaction_stepWrite _).of_sampled.trans (sameTransaction_stepRead _).of_sampled).trans
    (sameTransaction_stepAwait _).of_sampled

@[simp] theorem afterWait_cfg (s : State) : (afterWait s).cfg = s.cfg := by simp [afterWait]

@[simp] theorem afterWait_disp (s : State) : (afterWait s).disp = s.disp := by simp [afterWait]

@[simp] theorem afterWait_answers (s : State) : (afterWait s).answers = s.answers.tail.tail := by simp [afterWait]

theorem count_afterWait {s : State} (h : Inv s) (hst : s.cc.st = .sending) :
    count isWrite (afterWait s) = count isWrite s + 1 := by
  have hinv1 := inv_takeStart (inv_sample (inv_stepWrite (inv_takeStart (inv_sample h))))
  rw [afterWait, (count_stepAwait _).1, count_takeStart, count_sample, (count_stepRead hinv1 hst).1, count_takeStart,
    count_sample, (count_stepWrite (inv_takeStart (inv_sample h)) hst).1, count_takeStart, count_sample]

/-- The response `rx` passes the three checks of a transaction and equals the value its set intends
(42_command_channel R141, R142). -/
structure GoodResponse (s : State) (e : Endpoint) (rx : List Byte) : Prop where
  length  : rx.length = s.cfg.n
  trailer : trailerOk s.cfg rx = true
  cmd     : rx.getD s.cfg.cmdOffset.toNat 0 = s.cc.ep.setWidth 8
  sub     : e.hasSub = true → rx.getD 2 0 = s.cc.sub
  equal   : (payloadOf s.cfg rx).take e.width = pad (writePayload s) e.width

/-- The checks look at the configuration and at the transaction only. -/
theorem GoodResponse.of_same {s t : State} {e : Endpoint} {rx : List Byte} (hg : GoodResponse s e rx)
    (hcfg : t.cfg = s.cfg) (h : SameTransaction s t) : GoodResponse t e rx := by
  obtain ⟨hlen, htrailer, hcmd, hsub, hequal⟩ := hg
  constructor
  · rwa [hcfg]
  · rwa [hcfg]
  · rwa [hcfg, h.ep]
  · rwa [h.sub]
  · rwa [writePayload, hcfg, h.want, h.wlen]

theorem accept_of_good {s : State} {e : Endpoint} {rx : List Byte} (hc : s.cfg.wf = true)
    (he : endpoint? s.cfg s.cc.ep = some e) (hg : GoodResponse s e rx) (hrx : s.rxbuf = Memory.ofBytes rx) :
    accept s = true := by
  have htrailer : trailerOk s.cfg (s.rxbuf.bytes s.cfg.n) = true := by
    rw [hrx, bytes_ofBytes hg.length]
    exact hg.trailer
  have hn : 1 ≤ s.cfg.n := (three_le_n hc).trans' (by decide)
  refine (accept_iff hc he).2 ⟨.inr ((trailerOk_bytes s.rxbuf hn).1 htrailer), ?_, ?_⟩
  · rw [hrx, read_ofBytes]
    exact hg.cmd
  · rw [hrx, read_ofBytes]
    cases hs : e.hasSub with
    | false => exact .inl rfl
    | true => exact .inr (hg.sub hs)

theorem afterAccept_of_good {s : State} {e : Endpoint} {rx : List Byte} (hk : s.cc.kind = .set)
    (he : endpoint? s.cfg s.cc.ep = some e) (hg : GoodResponse s e rx) (hrx : s.rxbuf = Memory.ofBytes rx) :
    afterAccept (takeResponse s) = .success := by
  have hequal : readBackEqual (takeResponse s) = true := by
    rw [readBackEqual_takeResponse he, hrx, bytes_ofBytes hg.length]
    exact hg.equal
  rw [afterAccept_set (s := takeResponse s) hk, if_pos hequal]

/-- A host's set that has received such a response ends `OK`, in two steps. -/
theorem run_of_received {s : State} {e : Endpoint} {rx : List Byte} (h : Inv s) (hreset : NoReset s)
    (hst : s.cc.st = .validating) (hk : s.cc.kind = .set) (hd : s.disp = none)
    (he : endpoint? s.cfg s.cc.ep = some e) (hg : GoodResponse s e rx) (hrx : s.rxbuf = Memory.ofBytes rx) :
    ∃ t : State, Sys2Proof.core.run 2 s = .next t ∧ t.cc.st = .idle ∧ t.cc.seq = s.cc.seq ∧ t.disp = none ∧
      t.res.st = .ok ∧ t.done = true ∧ t.rxbuf = s.rxbuf ∧ t.answers = s.answers := by
  have h1 := step_validating hreset.now h.cfgWf hst
  have hafter := afterAccept_of_good (s := takeStart (sample s)) hk he { hg with } hrx
  rw [if_pos (accept_of_good h.cfgWf he hg hrx), hafter] at h1
  have hreset1 := noReset_of_step hreset h1
  have h2 := step_endState (ok := true) hreset1.now rfl
  rw [stepEnd_hostSet true (by simpa using hk) (by simpa using hd)] at h2
  refine ⟨_, (run_succ_of_step h1 1).trans (run_succ_of_step h2 0), ?_⟩
  simp [endHostSet, hd]

/-- Settles O56: the WRITE, the READ and the wait lead to the poll, the poll fetches the response, and its validation
and comparison end the set. -/
theorem setSucceedsOnEqualReadBack : Obligations.SetSucceedsOnEqualReadBack := by
  intro s e l1 l2 l3 ls a1 a2 rx rest h hst hp hk hd he hl hreset hready ha hlen htrailer hcmd hsub hequal
  obtain ⟨hrun, hinv, hreset', hpolling⟩ := run_afterWait h hreset hst hp hl hready
  have h4 := step_poll hinv hreset'.now hpolling
  have hanswers : (takeStart (sample (afterWait s))).answers = rx :: rest := by simp [ha]
  have hcfg : (stepPoll (takeStart (sample (afterWait s)))).cfg = s.cfg := by simp
  have hsame : SameTransaction s (stepPoll (takeStart (sample (afterWait s)))) :=
    (sameTransaction_afterWait s).trans (sameTransaction_stepPoll _).of_sampled
  have hrx : (stepPoll (takeStart (sample (afterWait s)))).rxbuf = Memory.ofBytes rx :=
    congrArg Memory.ofBytes (answer_of_listed hanswers (by simpa using hlen))
  have hgood : GoodResponse s e rx := ⟨hlen, htrailer, hcmd, hsub, hequal⟩
  obtain ⟨t, hend, hidle, hseq, hdisp, hok, hdone, hrxbuf, hans⟩ :=
    run_of_received (stepKeepsInv _ _ hinv h4) (noReset_of_step hreset' h4) rfl (hsame.kind.trans hk)
      (by simpa using hd) (by rw [hcfg, hsame.ep, he]) (hgood.of_same hcfg hsame) hrx
  refine ⟨t, (hrun 3).trans ((run_succ_of_step h4 2).trans hend), hidle, busy_eq_false.2 ⟨hidle, by rw [hdisp]; rfl⟩,
    hok, hdone, ?_, ?_, ?_⟩
  · calc count isWrite t
        = count isWrite (stepPoll (takeStart (sample (afterWait s)))) := congrArg (List.countP isWrite) hseq
      _ = count isWrite (afterWait s) := (count_stepPoll (inv_takeStart (inv_sample hinv))).1
      _ = count isWrite s + 1 := count_afterWait h hst
  · rw [hrxbuf, hrx, bytes_ofBytes hlen]
  · rw [hans, stepPoll_answers, hanswers]
    rfl

end Sys2Proof.Machine

namespace Sys2Proof.Machine

/-! ### Masks (30_encoding R85, R86, 43_value_encoder R163) -/

theorem hasDp_eq_getLsbD : ∀ d : Byte, hasDp d = d.getLsbD 7 := by decide

theorem withDp_and_decimal : ∀ d : Byte, withDp d &&& decimal = decimal := by decide

theorem and_decimal_of_hasDp : ∀ d : Byte, hasDp d = false → d &&& decimal = 0 := by decide

theorem hasDp_dash {t : SegTable} (h : t.wf = true) : hasDp t.dash = false := by
  simp only [SegTable.wf, Bool.and_eq_true, Bool.not_eq_true'] at h
  obtain ⟨⟨_, hdash⟩, _⟩ := h
  rwa [hasDp_eq_getLsbD]

theorem hasDp_underscore {t : SegTable} (h : t.wf = true) : hasDp t.underscore = false := by
  simp only [SegTable.wf, Bool.and_eq_true, Bool.not_eq_true'] at h
  obtain ⟨_, hunder⟩ := h
  rwa [hasDp_eq_getLsbD]

theorem blank_eq_zero {t : SegTable} (h : t.wf = true) : t.blank = 0 := by
  simp only [SegTable.wf, Bool.and_eq_true, beq_iff_eq] at h
  obtain ⟨⟨⟨_, hblank⟩, _⟩, _⟩ := h
  exact hblank

/-- A mask with the point added when `c` holds. -/
def pointIf (c : Prop) [Decidable c] (d : Byte) : Byte := if c then withDp d else d

theorem pointIf_and_decimal {c : Prop} [Decidable c] {d : Byte} (h : hasDp d = false) :
    pointIf c d &&& decimal = if c then decimal else 0 := by
  by_cases hc : c
  · simp [pointIf, hc, withDp_and_decimal]
  · simp [pointIf, hc, and_decimal_of_hasDp d h]

/-- A leading zero is `D0` in all eight bits: a zero that carries the point is none (43_value_encoder R167). -/
theorem pointIf_segDigit_eq_zero {t : SegTable} (h : t.wf = true) {c : Prop} [Decidable c] {v : Nat} (hv : v < 16) :
    pointIf c (segDigit t v) = segDigit t 0 ↔ ¬ c ∧ v = 0 := by
  by_cases hc : c
  · have hne : withDp (segDigit t v) ≠ segDigit t 0 := fun he => by
      have := hasDp_withDp (segDigit t v)
      rw [he, hasDp_segDigit h (by decide)] at this
      cases this
    simp [pointIf, hc, hne]
  · simp [pointIf, hc, segDigit_inj h hv (by decide : 0 < 16)]

/-! ### The character table (30_encoding R88) -/

theorem toNat_byte {n : Nat} (h : n ≤ 255) : (BitVec.ofNat 8 n).toNat = n := by
  rw [BitVec.toNat_ofNat]; omega

theorem chr_digit {v : Nat} (t : SegTable) (hv : v ≤ 9) : chr t (BitVec.ofNat 8 (0x30 + v)) = segDigit t v := by
  simp only [chr, toNat_byte (show 0x30 + v ≤ 255 by omega)]
  rw [if_pos (by omega), Nat.add_sub_cancel_left]

theorem chr_upper {v : Nat} (t : SegTable) (hv : v ≤ 5) : chr t (BitVec.ofNat 8 (0x41 + v)) = segDigit t (10 + v) := by
  simp only [chr, toNat_byte (show 0x41 + v ≤ 255 by omega)]
  rw [if_neg (by omega), if_pos (by omega), Nat.add_sub_cancel_left, Nat.add_comm]

theorem chr_lower {v : Nat} (t : SegTable) (hv : v ≤ 5) : chr t (BitVec.ofNat 8 (0x61 + v)) = segDigit t (10 + v) := by
  simp only [chr, toNat_byte (show 0x61 + v ≤ 255 by omega)]
  rw [if_neg (by omega), if_neg (by omega), if_pos (by omega), Nat.add_sub_cancel_left, Nat.add_comm]

theorem chr_point (t : SegTable) : chr t 0x2E = decimal := rfl

theorem chr_unmapped {n : Nat} (t : SegTable) (hn : n ≤ 255) (hdig : ¬ (0x30 ≤ n ∧ n ≤ 0x39))
    (hup : ¬ (0x41 ≤ n ∧ n ≤ 0x46)) (hlow : ¬ (0x61 ≤ n ∧ n ≤ 0x66)) (hdash : n ≠ 0x2D) (hunder : n ≠ 0x5F)
    (hpoint : n ≠ 0x2E) : chr t (BitVec.ofNat 8 n) = t.blank := by
  simp only [chr, toNat_byte hn, if_neg hdig, if_neg hup, if_neg hlow, if_neg hdash, if_neg hunder, if_neg hpoint]

/-- The point is the only character whose mask has the point. -/
theorem hasDp_chr {t : SegTable} (hw : t.wf = true) {c : Byte} (hc : c ≠ 0x2E) : hasDp (chr t c) = false := by
  have hc' : c.toNat ≠ 0x2E := fun h => hc (BitVec.eq_of_toNat_eq h)
  unfold chr
  dsimp only
  split_ifs
  · exact hasDp_segDigit hw (by omega)
  · exact hasDp_segDigit hw (by omega)
  · exact hasDp_segDigit hw (by omega)
  · exact hasDp_dash hw
  · exact hasDp_underscore hw
  · rw [blank_eq_zero hw]; rfl

/-! ### Digits of a number (43_value_encoder R164, R166, R167) -/

theorem i2d_toList (t : SegTable) (n : Nat) : (i2d t n).toList =
    [segDigit t (n / 1000 % 10), segDigit t (n / 100 % 10), segDigit t (n / 10 % 10), segDigit t (n % 10)] := by
  simp only [i2d, Digits.toList, Nat.div_div_eq_div_mul, Nat.reduceMul]

/-- The digits of a number that four places hold. -/
theorem i2d_of_le {n : Nat} (t : SegTable) (h : n ≤ 9999) : i2d t n =
    ⟨segDigit t (n / 1000), segDigit t (n / 100 % 10), segDigit t (n / 10 % 10), segDigit t (n % 10)⟩ := by
  have hd1 : n / 1000 % 10 = n / 1000 := Nat.mod_eq_of_lt (by omega)
  simp only [i2d, Nat.div_div_eq_div_mul, Nat.reduceMul, hd1]

/-- The digits of two numbers of two places side by side. -/
theorem i2d_pair {a b : Nat} (t : SegTable) (ha : a < 100) (hb : b < 100) : i2d t (a * 100 + b) =
    ⟨segDigit t (a / 10), segDigit t (a % 10), segDigit t (b / 10), segDigit t (b % 10)⟩ := by
  have h1 : (a * 100 + b) / 1000 = a / 10 := by omega
  have h2 : (a * 100 + b) / 100 % 10 = a % 10 := by omega
  have h3 : (a * 100 + b) / 10 % 10 = b / 10 := by omega
  have h4 : (a * 100 + b) % 10 = b % 10 := by omega
  rw [i2d_of_le t (by omega), h1, h2, h3, h4]

/-- `clz` in closed form: `z1`, `z2` and `z3` say that the first, two or three digits are leading zeros. -/
theorem clz_eq {t : SegTable} {d : Digits} {z1 z2 z3 : Prop} [Decidable z1] [Decidable z2] [Decidable z3]
    (h1 : d.d1 = segDigit t 0 ↔ z1) (h2 : d.d1 = segDigit t 0 ∧ d.d2 = segDigit t 0 ↔ z2)
    (h3 : d.d1 = segDigit t 0 ∧ d.d2 = segDigit t 0 ∧ d.d3 = segDigit t 0 ↔ z3) :
    clz t d = ⟨if z1 then t.blank else d.d1, if z2 then t.blank else d.d2, if z3 then t.blank else d.d3, d.d4⟩ := by
  simp only [← h1, ← h2, ← h3, clz]
  by_cases hd1 : d.d1 = segDigit t 0
  · by_cases hd2 : d.d2 = segDigit t 0
    · by_cases hd3 : d.d3 = segDigit t 0 <;> simp [hd1, hd2, hd3]
    · simp [hd1, hd2]
  · simp [hd1]

/-- The digits of `a` with the point at position `4-p`; none when `p` is not one of the four places. -/
def pointed (t : SegTable) (p : Int) (a : Nat) : Digits :=
  ⟨pointIf (p = 3) (segDigit t (a / 1000)), pointIf (p = 2) (segDigit t (a / 100 % 10)),
    pointIf (p = 1) (segDigit t (a / 10 % 10)), pointIf (p = 0) (segDigit t (a % 10))⟩

theorem i2d_eq_pointed {n : Nat} (t : SegTable) (h : n ≤ 9999) : i2d t n = pointed t (-1) n := by
  rw [i2d_of_le t h]
  rfl

theorem setPoint_i2d {n : Nat} {p : Int} (t : SegTable) (h : n ≤ 9999) (h0 : 0 ≤ p) (h3 : p ≤ 3) :
    setPoint p.toNat (i2d t n) = pointed t p n := by
  obtain rfl | rfl | rfl | rfl : p = 0 ∨ p = 1 ∨ p = 2 ∨ p = 3 := by omega
  all_goals
    rw [i2d_of_le t h]
    rfl

/-- Leading zeros end at the point: the digit at position `4-k` is one when the point is right of it and the number has
no digit at or left of it (43_value_encoder R166, R167). -/
theorem clzUnless_pointed {t : SegTable} (h : t.wf = true) {n : Nat} {p : Int} (hn : n ≤ 9999) (hp : p ≤ 3)
    (sh : Bool) : clzUnless sh t (pointed t p n) =
    ⟨if sh = false ∧ p < 3 ∧ n < 1000 then t.blank else (pointed t p n).d1,
      if sh = false ∧ p < 2 ∧ n < 100 then t.blank else (pointed t p n).d2,
      if sh = false ∧ p < 1 ∧ n < 10 then t.blank else (pointed t p n).d3, (pointed t p n).d4⟩ := by
  cases sh with
  | true => rfl
  | false =>
    have hd1 : (pointed t p n).d1 = segDigit t 0 ↔ ¬ p = 3 ∧ n / 1000 = 0 := pointIf_segDigit_eq_zero h (by omega)
    have hd2 : (pointed t p n).d2 = segDigit t 0 ↔ ¬ p = 2 ∧ n / 100 % 10 = 0 := pointIf_segDigit_eq_zero h (by omega)
    have hd3 : (pointed t p n).d3 = segDigit t 0 ↔ ¬ p = 1 ∧ n / 10 % 10 = 0 := pointIf_segDigit_eq_zero h (by omega)
    refine clz_eq ?_ ?_ ?_
    · simp only [hd1, true_and]; omega
    · simp only [hd1, hd2, true_and]; omega
    · simp only [hd1, hd2, hd3, true_and]; omega

/-! ### The integer and the fixed-point display (43_value_encoder R165 to R175) -/

theorem inRange_iff {n : Int} : inRange n = true ↔ -999 ≤ n ∧ n ≤ 9999 := by simp [inRange]

theorem natAbs_le_of_range {n : Int} (h : -999 ≤ n ∧ n ≤ 9999) : n.natAbs ≤ 9999 := by omega

theorem intDisplay_out_of_range {n : Int} (t : SegTable) (sh : Bool) (h : n < -999 ∨ 9999 < n) :
    intDisplay t n sh = .error .errArg := by
  have hr : inRange n = false := by
    rw [← Bool.not_eq_true, inRange_iff]; omega
  simp [intDisplay, hr]

/-- With leading zeros shown, for any table. -/
theorem intDisplay_shown {n : Int} (t : SegTable) (h : -999 ≤ n ∧ n ≤ 9999) : intDisplay t n true =
    .ok ⟨if n < 0 then t.dash else segDigit t (n.natAbs / 1000), segDigit t (n.natAbs / 100 % 10),
      segDigit t (n.natAbs / 10 % 10), segDigit t (n.natAbs % 10)⟩ := by
  simp only [intDisplay, inRange_iff.2 h, if_true, clzUnless, i2d_of_le t (natAbs_le_of_range h)]
  by_cases hneg : n < 0 <;> simp [hneg]

theorem intDisplay_ok {t : SegTable} (hw : t.wf = true) {n : Int} (h : -999 ≤ n ∧ n ≤ 9999) (sh : Bool) :
    intDisplay t n sh =
    .ok ⟨if n < 0 then t.dash else if sh = false ∧ n.natAbs < 1000 then t.blank else segDigit t (n.natAbs / 1000),
      if sh = false ∧ n.natAbs < 100 then t.blank else segDigit t (n.natAbs / 100 % 10),
      if sh = false ∧ n.natAbs < 10 then t.blank else segDigit t (n.natAbs / 10 % 10),
      segDigit t (n.natAbs % 10)⟩ := by
  have ha := natAbs_le_of_range h
  simp only [intDisplay, inRange_iff.2 h, if_true, i2d_eq_pointed t ha, clzUnless_pointed hw ha (p := -1) (by decide)]
  by_cases hneg : n < 0 <;> simp [hneg, pointed, pointIf]

theorem fixDisplay_out_of_range {m p : Int} (t : SegTable) (sh : Bool) (h : p < 0 ∨ 3 < p ∨ m < -999 ∨ 9999 < m) :
    fixDisplay t m sh p = .error .errArg := by
  by_cases hp : p < 0 ∨ 3 < p
  · exact if_pos hp
  · have hr : inRange m = false := by
      rw [← Bool.not_eq_true, inRange_iff]; omega
    simp [fixDisplay, hp, hr]

/-- The first digit of a fixed-point display holds no point but the one at position 1. -/
theorem leading_and_decimal {t : SegTable} (hw : t.wf = true) {z : Prop} [Decidable z] {p : Int} {a : Nat}
    (ha : a ≤ 9999) (hz : z → p ≠ 3) :
    (if z then t.blank else (pointed t p a).d1) &&& decimal = if p = 3 then decimal else 0 := by
  by_cases hc : z
  · simp [hc, hz hc, blank_eq_zero hw]
  · rw [if_neg hc]
    exact pointIf_and_decimal (hasDp_segDigit hw (by omega))

theorem fixDisplay_ok {t : SegTable} (hw : t.wf = true) {m p : Int} (h : -999 ≤ m ∧ m ≤ 9999) (h0 : 0 ≤ p) (h3 : p ≤ 3)
    (sh : Bool) : fixDisplay t m sh p =
    .ok ⟨if m < 0 then pointIf (p = 3) t.dash
        else if sh = false ∧ p < 3 ∧ m.natAbs < 1000 then t.blank else (pointed t p m.natAbs).d1,
      if sh = false ∧ p < 2 ∧ m.natAbs < 100 then t.blank else (pointed t p m.natAbs).d2,
      if sh = false ∧ p < 1 ∧ m.natAbs < 10 then t.blank else (pointed t p m.natAbs).d3,
      (pointed t p m.natAbs).d4⟩ := by
  have ha := natAbs_le_of_range h
  have hp : ¬ (p < 0 ∨ 3 < p) := by omega
  have hdash : t.dash ||| (if p = 3 then decimal else 0) = pointIf (p = 3) t.dash := by
    by_cases hp3 : p = 3 <;> simp [hp3, pointIf, withDp]
  have hkept := leading_and_decimal (z := sh = false ∧ p < 3 ∧ m.natAbs < 1000) hw ha fun ⟨_, hlt, _⟩ => hlt.ne
  simp only [fixDisplay, hp, if_false, inRange_iff.2 h, if_true, setPoint_i2d t ha h0 h3, clzUnless_pointed hw ha h3,
    hkept, hdash]
  by_cases hneg : m < 0 <;> simp [hneg]

/-! ### The string display (43_value_encoder R178) -/

theorem strScan_full {t : SegTable} {filled : List Byte} (h : filled.length = 4) (cs : List Byte) :
    strScan t filled cs = filled := by
  cases cs with
  | nil => rfl
  | cons c cs => exact if_pos h

/-- The next character does not join the slot before it. -/
def opensSlot : List Byte → List Byte → Prop
  | last :: _, c :: _ => ¬ (c = 0x2E ∧ hasDp last = false)
  | _, _ => True

theorem strScan_push {t : SegTable} {filled cs : List Byte} {c : Byte} (hl : filled.length ≠ 4)
    (h : opensSlot filled (c :: cs)) : strScan t filled (c :: cs) = strScan t (chr t c :: filled) cs := by
  cases filled with
  | nil => rfl
  | cons last before => exact (if_neg hl).trans (if_neg h)

theorem strScan_merge {t : SegTable} {last : Byte} {before : List Byte} (hl : (last :: before).length ≠ 4)
    (h : hasDp last = false) (cs : List Byte) :
    strScan t (last :: before) (0x2E :: cs) = strScan t (withDp last :: before) cs :=
  (if_neg hl).trans (if_pos ⟨rfl, h⟩)

theorem opensSlot_of_hasDp {last : Byte} (h : hasDp last = true) (before cs : List Byte) :
    opensSlot (last :: before) cs := by
  cases cs with
  | nil => trivial
  | cons c cs => simp [opensSlot, h]

theorem opensSlot_of_ne {c : Byte} (h : c ≠ 0x2E) (filled cs : List Byte) : opensSlot filled (c :: cs) := by
  cases filled with
  | nil => trivial
  | cons last before => exact fun ⟨hc, _⟩ => h hc

/-! The reading of the slots, one form of the string at a time. -/

theorem slotsOf_point (t : SegTable) (k : Nat) (cs : List Byte) :
    slotsOf t (k + 2) (0x2E :: cs) = decimal :: slotsOf t (k + 1) cs := if_pos rfl

theorem slotsOf_single {c : Byte} (t : SegTable) (k : Nat) (hc : c ≠ 0x2E) : slotsOf t (k + 2) [c] = [chr t c] := by
  rw [slotsOf, if_neg hc]

theorem slotsOf_join {c : Byte} (t : SegTable) (k : Nat) (hc : c ≠ 0x2E) (ds : List Byte) :
    slotsOf t (k + 2) (c :: 0x2E :: ds) = withDp (chr t c) :: slotsOf t (k + 1) ds := by
  rw [slotsOf, if_neg hc]; exact if_pos rfl

theorem slotsOf_next {c d : Byte} (t : SegTable) (k : Nat) (hc : c ≠ 0x2E) (hd : d ≠ 0x2E) (ds : List Byte) :
    slotsOf t (k + 2) (c :: d :: ds) = chr t c :: slotsOf t (k + 1) (d :: ds) := by
  rw [slotsOf, if_neg hc]; exact if_neg hd

theorem length_slotsOf_le (t : SegTable) (k : Nat) (cs : List Byte) : (slotsOf t k cs).length ≤ k := by
  induction k, cs using slotsOf.induct with
  | case1 | case2 | case3 => simp [slotsOf]
  | case4 k cs ih => rw [slotsOf_point]; exact Nat.succ_le_succ ih
  | case5 k c hc => simp [slotsOf_single t k hc]
  | case6 k c hc ds ih => rw [slotsOf_join t k hc]; exact Nat.succ_le_succ ih
  | case7 k c hc d ds hd ih => rw [slotsOf_next t k hc hd]; exact Nat.succ_le_succ ih

/-- The scan with its backward merge is the reading with a look ahead, from any point where no merge is due. -/
theorem reverse_strScan {t : SegTable} (hw : t.wf = true) (k : Nat) (cs : List Byte) : ∀ filled : List Byte,
    filled.length + k = 4 → opensSlot filled cs → (strScan t filled cs).reverse = filled.reverse ++ slotsOf t k cs := by
  induction k, cs using slotsOf.induct with
  | case1 cs =>
    intro filled hl _
    rw [strScan_full hl, slotsOf, List.append_nil]
  | case2 k =>
    intro filled _ _
    simp [strScan, slotsOf]
  | case3 c cs =>
    intro filled hl ho
    rw [strScan_push (by omega) ho, strScan_full (by simpa using hl)]
    simp [slotsOf]
  | case4 k cs ih =>
    intro filled hl ho
    rw [strScan_push (by omega) ho, chr_point, ih _ (by simp; omega) (opensSlot_of_hasDp (by decide) _ _),
      slotsOf_point]
    simp
  | case5 k c hc =>
    intro filled hl ho
    rw [strScan_push (by omega) ho, slotsOf_single t k hc]
    simp [strScan]
  | case6 k c hc ds ih =>
    intro filled hl ho
    rw [strScan_push (by omega) ho, strScan_merge (by simp; omega) (hasDp_chr hw hc),
      ih _ (by simp; omega) (opensSlot_of_hasDp (hasDp_withDp _) _ _), slotsOf_join t k hc]
    simp
  | case7 k c hc d ds hd ih =>
    intro filled hl ho
    rw [strScan_push (by omega) ho, ih _ (by simp; omega) (opensSlot_of_ne hd _ _), slotsOf_next t k hc hd]
    simp

/-- Four digits read from slots, the unfilled ones blank. -/
theorem fill_slots (b : Byte) {slots : List Byte} (h : slots.length ≤ 4) :
    [slots.getD 0 b, slots.getD 1 b, slots.getD 2 b, slots.getD 3 b] =
      slots ++ List.replicate (4 - slots.length) b := by
  match slots, h with
  | [], _ | [_], _ | [_, _], _ | [_, _, _], _ | [_, _, _, _], _ => rfl

theorem strDisplay_toList {t : SegTable} (hw : t.wf = true) (cs : List Byte) : (strDisplay t cs).toList =
    slotsOf t 4 cs ++ List.replicate (4 - (slotsOf t 4 cs).length) t.blank := by
  have hscan : (strScan t [] cs).reverse = slotsOf t 4 cs := reverse_strScan hw 4 cs [] rfl (by cases cs <;> trivial)
  rw [← fill_slots _ (length_slotsOf_le t 4 cs), ← hscan]
  rfl

/-! ### The clock display (43_value_encoder R184, R185) -/

/-- The hour on the display, as a number of two places (43_value_encoder R184). -/
def hourShown (mode12 : Bool) (hour : Nat) : Nat :=
  if mode12 then (if hour = 0 ∨ hour = 12 then 12 else if hour ≤ 11 then hour else hour - 12) else hour

theorem clkHour_natCast (mode12 : Bool) (hour : Nat) : clkHour mode12 hour = hourShown mode12 hour := by
  unfold clkHour hourShown
  split_ifs <;> omega

theorem hourShown_le {mode12 : Bool} {hour : Nat} (h : hour ≤ 23) : hourShown mode12 hour ≤ 23 := by
  unfold hourShown
  split_ifs <;> omega

theorem clkDisplay_out_of_range {hour minute : Int} (t : SegTable) (mode12 pmdp : Bool)
    (h : hour < 0 ∨ 23 < hour ∨ minute < 0 ∨ 59 < minute) : clkDisplay t hour minute mode12 pmdp = .error .errArg :=
  if_pos h

theorem clkDisplay_ok {t : SegTable} (hw : t.wf = true) {hour minute : Nat} (hh : hour ≤ 23) (hm : minute ≤ 59)
    (mode12 pmdp : Bool) : clkDisplay t hour minute mode12 pmdp =
    .ok (⟨if mode12 = true ∧ hourShown mode12 hour < 10 then t.blank else segDigit t (hourShown mode12 hour / 10),
      segDigit t (hourShown mode12 hour % 10), segDigit t (minute / 10),
      pointIf ((mode12 = true ∧ 12 ≤ hour) ∧ pmdp = true) (segDigit t (minute % 10))⟩,
      decide (mode12 = true ∧ 12 ≤ hour)) := by
  have hin : ¬ ((hour : Int) < 0 ∨ 23 < (hour : Int) ∨ (minute : Int) < 0 ∨ 59 < (minute : Int)) := by omega
  have hshown := hourShown_le (mode12 := mode12) hh
  have hnum : ((hourShown mode12 hour : Int) * 100 + minute).toNat = hourShown mode12 hour * 100 + minute := by omega
  have htens : segDigit t (hourShown mode12 hour / 10) = segDigit t 0 ↔ hourShown mode12 hour < 10 := by
    rw [segDigit_inj hw (by omega) (by decide)]; omega
  have hpm : pmFlag mode12 hour = decide (mode12 = true ∧ 12 ≤ hour) := by
    cases mode12 <;> simp [pmFlag]
  have hdigits := i2d_pair t (a := hourShown mode12 hour) (b := minute) (by omega) (by omega)
  simp only [clkDisplay, hin, if_false, clkHour_natCast, hnum, hdigits, htens, hpm, decide_eq_true_eq, pointIf]
  split_ifs <;> rfl

/-! ### The duration display (43_value_encoder R188) -/

/-- The condition under which a duration is shown as hours and minutes (43_value_encoder R188). -/
abbrev ShowsHourMinute (hours minutes mode : Int) : Prop := mode = 0 ∨ (mode = 2 ∧ (hours ≠ 0 ∨ minutes ≤ -10))

theorem durMode_eq {mode : Int} (hours minutes : Int) (h0 : 0 ≤ mode) (h2 : mode ≤ 2) :
    durMode hours minutes mode = if ShowsHourMinute hours minutes mode then 0 else 1 := by
  obtain rfl | rfl | rfl : mode = 0 ∨ mode = 1 ∨ mode = 2 := by omega
  all_goals simp [durMode, ShowsHourMinute]

theorem durValue_durMode {mode : Int} (hours minutes seconds : Int) (h0 : 0 ≤ mode) (h2 : mode ≤ 2) :
    durValue hours minutes seconds (durMode hours minutes mode) =
      if ShowsHourMinute hours minutes mode then hours * 100 + minutes else minutes * 100 + seconds := by
  rw [durMode_eq hours minutes h0 h2]
  by_cases hm : ShowsHourMinute hours minutes mode
  · rw [if_pos hm, if_pos hm]; rfl
  · rw [if_neg hm, if_neg hm]; rfl

theorem durDisplay_of_mode {mode : Int} (t : SegTable) (hours minutes seconds : Int) (h0 : 0 ≤ mode) (h2 : mode ≤ 2) :
    durDisplay t hours minutes seconds mode =
      (intDisplay t (durValue hours minutes seconds (durMode hours minutes mode)) true).map
        (·, durMode hours minutes mode) :=
  if_neg (by omega)

theorem durDisplay_unknown_mode {mode : Int} (t : SegTable) (hours minutes seconds : Int) (h : mode < 0 ∨ 2 < mode) :
    durDisplay t hours minutes seconds mode = .error .errArg := if_pos h

/-! ### The temperature display (43_value_encoder R192 to R194) -/

theorem tmpDisplay_out_of_range {t10 : Int} (t : SegTable) (r : TempRound) (dec : Bool) (h : t10 < -990 ∨ 9990 < t10) :
    tmpDisplay t r t10 dec = .error .errArg := if_pos h

section
variable {t10 v : Int} {dec : Bool} {dm : Prop} [Decidable dm] (h : -990 ≤ t10 ∧ t10 ≤ 9990)
  (hdm : tmpDecimal t10 dec = decide dm) (hv : (if dm then t10 else t10.tdiv 10) = v)
include h hdm hv

/-- The number a temperature display shows takes three digits (43_value_encoder R192). -/
theorem natAbs_le_of_tmp : v.natAbs ≤ 999 := by
  subst hv
  split_ifs with hd
  · simp only [tmpDecimal, hd, decide_true, Bool.and_eq_true, decide_eq_true_eq] at hdm
    omega
  · rw [Int.natAbs_tdiv]
    change t10.natAbs / 10 ≤ 999
    omega

theorem tmpDisplay_ok {t : SegTable} (hw : t.wf = true) : tmpDisplay t .towardZero t10 dec =
    .ok (⟨if v < 0 then t.dash else if v.natAbs < 100 then t.blank else segDigit t (v.natAbs / 100),
      if dm then withDp (segDigit t (v.natAbs / 10 % 10))
        else if v.natAbs < 10 then t.blank else segDigit t (v.natAbs / 10 % 10),
      segDigit t (v.natAbs % 10), t.blank⟩, decide dm) := by
  have hin : ¬ (t10 < -990 ∨ 9990 < t10) := by omega
  have ha := natAbs_le_of_tmp h hdm hv
  have hval : tmpValue .towardZero t10 dec = v := by
    rw [← hv]
    simp only [tmpValue, hdm, decide_eq_true_eq]
    rfl
  have hd1 : v.natAbs / 100 % 10 = v.natAbs / 100 := Nat.mod_eq_of_lt (by omega)
  have hz1 : segDigit t (v.natAbs / 100) = segDigit t 0 ↔ v.natAbs < 100 := by
    rw [segDigit_inj hw (by omega) (by decide)]; omega
  have hlast : v.natAbs < 100 ∧ v.natAbs / 10 % 10 = 0 ↔ v.natAbs < 10 := by omega
  have hz2 : v.natAbs < 100 ∧ (if dm then withDp (segDigit t (v.natAbs / 10 % 10))
      else segDigit t (v.natAbs / 10 % 10)) = segDigit t 0 ↔ ¬ dm ∧ v.natAbs < 10 := by
    rw [← hlast, and_left_comm]
    exact and_congr_right fun _ => pointIf_segDigit_eq_zero hw (by omega)
  simp only [tmpDisplay, hin, if_false, hval, hdm, decide_eq_true_eq, i2d_of_le t (by omega : v.natAbs ≤ 9999), hd1,
    hz1, hz2]
  by_cases hd : dm <;> simp [hd]

end

/-! ### The operations on single masks and given digits (43_value_encoder R161 to R167) -/

/-- Settles O13: the digit is an index of the table when it is in range. -/
theorem digitOperationLooksUpDigit : Obligations.DigitOperationLooksUpDigit := by
  refine ⟨fun _ => decode_encode (i := .veDig) rfl, fun s hb => ⟨fun v hv hx => ?_, fun h => ?_⟩⟩
  · have hx' : signed s.req.x0 = v := hx
    refine returns_of_meaning (rv := .val (wordOfByte (segDigit s.cfg.seg v))) (dout := .any) (fun _ => rfl) hb ?_ rfl
    dsimp only
    rw [hx', if_neg (by omega)]
    rfl
  · refine raises_of_meaning (fun _ => rfl) hb ?_
    exact if_pos h

/-- `VE.CHR` of a byte, its mask given. -/
theorem returns_chr {s : State} (hb : s.busy = false) {n : Nat} {m : Byte} (hx : s.req.x0.toInt = n) (hn : n ≤ 255)
    (hm : chr s.cfg.seg (BitVec.ofNat 8 n) = m) : Returns .veChr s (fun t => t.res.rv = m.setWidth 16) := by
  have hx' : signed s.req.x0 = n := hx
  refine returns_of_meaning (rv := .val (wordOfByte m)) (dout := .any) (fun _ => rfl) hb ?_ rfl
  dsimp only
  rw [hx', if_neg (by omega), ← hm]
  rfl

/-- Settles O14: one arm of the character table for each range of the byte, and `chr_unmapped` for what is left. -/
theorem characterOperationLooksUpTable : Obligations.CharacterOperationLooksUpTable := by
  refine ⟨fun _ => decode_encode (i := .veChr) rfl, fun s hb => ⟨?_, ?_, ?_, ?_, ?_, ?_, ?_⟩⟩
  · intro v hv hx
    exact returns_chr hb (n := 0x30 + v) hx (by omega) (chr_digit _ hv)
  · rintro v hv (hx | hx)
    · exact returns_chr hb (n := 0x41 + v) hx (by omega) (chr_upper _ hv)
    · exact returns_chr hb (n := 0x61 + v) hx (by omega) (chr_lower _ hv)
  · intro hx
    exact returns_chr hb (n := 0x2D) hx (by decide) rfl
  · intro hx
    exact returns_chr hb (n := 0x5F) hx (by decide) rfl
  · intro hx
    exact returns_chr hb (n := 0x2E) hx (by decide) rfl
  · intro c hx h0 h255 hdig hup hlow hdash hunder hpoint
    obtain ⟨n, rfl⟩ := Int.eq_ofNat_of_zero_le h0
    exact returns_chr hb hx (by omega) (chr_unmapped _ (by omega) (by omega) (by omega) (by omega) (by omega) (by omega)
      (by omega))
  · intro h
    refine raises_of_meaning (fun _ => rfl) hb ?_
    exact if_pos h

theorem delivers_digits (d : Digits) (rv : Draw Word) (s : State) :
    Delivers (finish .ok rv (.val d.toList) s) d.toList :=
  delivers_finish (bs := d.toList) (show 4 ≤ 255 by decide) _ _ _

/-- Settles O15: the digits are those of `i2d_toList`, for every number, its higher places dropped. -/
theorem integerDecomposesIntoDigits : Obligations.IntegerDecomposesIntoDigits := by
  refine ⟨fun _ => decode_encode (i := .veI2d) rfl, fun s hb => ⟨fun n hx => ?_, fun h => ?_⟩⟩
  · have hx' : signed s.req.x0 = n := hx
    have hp := delivers_digits (i2d s.cfg.seg n) .any s
    rw [i2d_toList] at hp
    refine returns_of_meaning (fun _ => rfl) hb ?_ hp
    rw [hx', if_neg (by omega), ← i2d_toList]
    rfl
  · refine raises_of_meaning (fun _ => rfl) hb ?_
    exact if_pos h

section
variable {s : State} (hb : s.busy = false) (hl : s.req.dlen = 4)
include hl

theorem digitsOf_dinBytes : digitsOf (dinBytes s) =
    ⟨s.req.din.read 0, s.req.din.read 1, s.req.din.read 2, s.req.din.read 3⟩ := by
  rw [dinBytes, hl]
  rfl

include hb

theorem returns_clz {d : Digits}
    (h : clz s.cfg.seg ⟨s.req.din.read 0, s.req.din.read 1, s.req.din.read 2, s.req.din.read 3⟩ = d) :
    Returns .veClz s (fun t => Delivers t d.toList) := by
  refine returns_of_meaning (fun _ => rfl) hb ?_ (delivers_digits d .any s)
  rw [if_neg (not_not.2 hl), digitsOf_dinBytes hl, h]

end

/-- Settles O16: each count of leading zeros is one branch of `clz`. -/
theorem leadingZerosAreBlanked : Obligations.LeadingZerosAreBlanked := by
  refine ⟨fun _ => decode_encode (i := .veClz) rfl, fun s hb => ⟨fun hl => ⟨?_, ?_, ?_, ?_⟩, fun hl => ?_⟩⟩
  · intro h0 h1 h2
    exact returns_clz hb hl ((if_neg (not_not.2 h0)).trans ((if_neg (not_not.2 h1)).trans (if_neg (not_not.2 h2))))
  · intro h0 h1 h2
    exact returns_clz hb hl ((if_neg (not_not.2 h0)).trans ((if_neg (not_not.2 h1)).trans (if_pos h2)))
  · intro h0 h1
    exact returns_clz hb hl ((if_neg (not_not.2 h0)).trans (if_pos h1))
  · intro h0
    exact returns_clz hb hl (if_pos h0)
  · refine raises_of_meaning (fun _ => rfl) hb ?_
    exact if_pos hl

/-! ### The operations that show a display (30_encoding R81) -/

section
variable {i : Instr} {s : State} {shows : State → Except Status Shown}
  (hexec : ∀ u, exec i u = hostOp (fun u => finishShown (shows u) u) u) (hb : s.busy = false)
include hexec hb

theorem returns_of_shown {rv : Draw Word} {d : Digits} {p : State → Prop} (h : shows s = .ok (rv, d))
    (hp : p (finish .ok rv (.val d.toList) s)) : Returns i s p :=
  returns_of_meaning hexec hb (congrArg (finishShown · s) h) hp

theorem raises_of_shown {st : Status} (h : shows s = .error st) : Raises i s st :=
  raises_of_meaning hexec hb (congrArg (finishShown · s) h)

end

theorem truth_eq_false {w : Word} : truth w = false ↔ w = 0 := by simp [truth]

theorem truth_eq_true {w : Word} : truth w = true ↔ w ≠ 0 := by simp [truth]

theorem wordOfBool_decide (c : Prop) [Decidable c] : wordOfBool (decide c) = if c then 1 else 0 := by
  simp [wordOfBool]

/-- Settles O17: `intDisplay_ok` in range, `intDisplay_out_of_range` outside. -/
theorem integerDisplayShowsNumber : Obligations.IntegerDisplayShowsNumber := by
  refine ⟨fun _ => decode_encode (i := .veInt) rfl, fun s hb hw => ⟨fun h => ?_, fun h => ?_⟩⟩
  · simp only [← truth_eq_false]
    exact returns_of_shown (fun _ => rfl) hb (congrArg (Except.map _) (intDisplay_ok hw h (truth s.req.x1)))
      (delivers_digits _ _ _)
  · exact raises_of_shown (fun _ => rfl) hb (congrArg (Except.map _) (intDisplay_out_of_range s.cfg.seg _ h))

/-- Settles O18: `fixDisplay_ok` in range, `fixDisplay_out_of_range` outside. -/
theorem fixedPointDisplayShowsNumber : Obligations.FixedPointDisplayShowsNumber := by
  refine ⟨fun _ => decode_encode (i := .veFix) rfl, fun s hb hw => ⟨fun h0 h3 hlo hhi => ?_, fun h => ?_⟩⟩
  · simp only [← truth_eq_false]
    exact returns_of_shown (fun _ => rfl) hb
      (congrArg (Except.map _) (fixDisplay_ok hw ⟨hlo, hhi⟩ h0 h3 (truth s.req.x1))) (delivers_digits _ _ _)
  · exact raises_of_shown (fun _ => rfl) hb (congrArg (Except.map _) (fixDisplay_out_of_range s.cfg.seg _ h))

/-- Settles O19: the scan gives the slots of the reading (`reverse_strScan`), and blanks fill the rest. -/
theorem stringDisplayFillsSlots : Obligations.StringDisplayFillsSlots := by
  refine ⟨fun _ => decode_encode (i := .veStr) rfl, fun s hb hw => ⟨length_slotsOf_le _ _ _, ?_⟩⟩
  rw [← strDisplay_toList hw]
  exact returns_of_shown (shows := showStr) (fun _ => rfl) hb rfl (delivers_digits _ _ _)

/-- Settles O20: `clkDisplay_ok` in range, `clkDisplay_out_of_range` outside. -/
theorem clockDisplayShowsTime : Obligations.ClockDisplayShowsTime := by
  refine ⟨fun _ => decode_encode (i := .veClk) rfl, fun s hb hw => ⟨fun hour minute hx hy hh hm => ?_, fun h => ?_⟩⟩
  · simp only [← truth_eq_true]
    have hshow := clkDisplay_ok hw hh hm (truth s.req.x2) (truth s.req.x3)
    rw [← hx, ← hy] at hshow
    refine returns_of_shown (fun _ => rfl) hb (congrArg (Except.map _) hshow) ⟨?_, delivers_digits _ _ _⟩
    exact wordOfBool_decide _
  · exact raises_of_shown (fun _ => rfl) hb (congrArg (Except.map _) (clkDisplay_out_of_range s.cfg.seg _ _ h))

/-- Settles O21: the resolved mode decides `RV` and the number, which is shown as an integer with its leading zeros. -/
theorem durationDisplayShowsValue : Obligations.DurationDisplayShowsValue := by
  refine ⟨fun _ => decode_encode (i := .veDur) rfl, fun s hb => ⟨fun h0 h2 hlo hhi => ?_, fun h => ?_,
    fun h0 h2 h => ?_⟩⟩
  · have hshow := durDisplay_of_mode s.cfg.seg s.req.x0.toInt s.req.x1.toInt s.req.x2.toInt h0 h2
    rw [durValue_durMode _ _ _ h0 h2, intDisplay_shown _ ⟨hlo, hhi⟩, durMode_eq _ _ h0 h2] at hshow
    refine returns_of_shown (fun _ => rfl) hb (congrArg (Except.map _) hshow) ⟨?_, delivers_digits _ _ _⟩
    exact apply_ite (BitVec.ofInt 16) _ _ _
  · exact raises_of_shown (fun _ => rfl) hb (congrArg (Except.map _) (durDisplay_unknown_mode s.cfg.seg _ _ _ h))
  · have hshow := durDisplay_of_mode s.cfg.seg s.req.x0.toInt s.req.x1.toInt s.req.x2.toInt h0 h2
    rw [durValue_durMode _ _ _ h0 h2, intDisplay_out_of_range _ true h] at hshow
    exact raises_of_shown (fun _ => rfl) hb (congrArg (Except.map _) hshow)

/-- Settles O22: `tmpDisplay_ok` in range, `tmpDisplay_out_of_range` outside. -/
theorem temperatureDisplayShowsDegrees : Obligations.TemperatureDisplayShowsDegrees := by
  refine ⟨fun _ => decode_encode (i := .veTmp) rfl, fun s hb hw hr => ⟨fun hlo hhi => ?_, fun h => ?_⟩⟩
  · have hdm : tmpDecimal s.req.x0.toInt (truth s.req.x1) =
        decide (s.req.x1 ≠ 0 ∧ -100 < s.req.x0.toInt ∧ s.req.x0.toInt < 1000) := by
      rw [Bool.eq_iff_iff]
      simp [tmpDecimal, truth, and_assoc]
    have hshow := tmpDisplay_ok ⟨hlo, hhi⟩ hdm rfl hw
    rw [← hr] at hshow
    refine returns_of_shown (fun _ => rfl) hb (congrArg (Except.map _) hshow) ⟨?_, delivers_digits _ _ _⟩
    exact wordOfBool_decide _
  · exact raises_of_shown (fun _ => rfl) hb (congrArg (Except.map _) (tmpDisplay_out_of_range s.cfg.seg _ _ h))

end Sys2Proof.Machine

namespace Sys2Proof.Machine

/-! ### The ranges of the value encodings of a display operation (60_exceptions R223) -/

theorem map_ok {α β : Type} {r : Except Status α} (f : α → β) (h : ∃ a, r = .ok a) : ∃ b, r.map f = .ok b :=
  h.imp' f fun _ ha => congrArg (Except.map f) ha

theorem intDisplay_in_range {n : Int} (t : SegTable) (sh : Bool) (h : -999 ≤ n ∧ n ≤ 9999) :
    ∃ d, intDisplay t n sh = .ok d :=
  ⟨_, if_pos (inRange_iff.2 h)⟩

theorem fixDisplay_in_range {m p : Int} (t : SegTable) (sh : Bool) (h0 : 0 ≤ p) (h3 : p ≤ 3)
    (h : -999 ≤ m ∧ m ≤ 9999) : ∃ d, fixDisplay t m sh p = .ok d :=
  ⟨_, (if_neg (by omega)).trans (if_pos (inRange_iff.2 h))⟩

theorem clkDisplay_in_range {hour minute : Int} (t : SegTable) (mode12 pmdp : Bool)
    (h : ¬ (hour < 0 ∨ 23 < hour ∨ minute < 0 ∨ 59 < minute)) :
    ∃ r, clkDisplay t hour minute mode12 pmdp = .ok r :=
  ⟨_, if_neg h⟩

theorem tmpDisplay_in_range {t10 : Int} (t : SegTable) (r : TempRound) (dec : Bool) (h : ¬ (t10 < -990 ∨ 9990 < t10)) :
    ∃ x, tmpDisplay t r t10 dec = .ok x :=
  ⟨_, if_neg h⟩

/-- The operands of a duration are in range when the number that the resolved mode shows is (43_value_encoder R188). -/
theorem durOperands_iff {s : State} : OperandsInRange .dispDur s ↔
    (0 ≤ s.req.x3.toInt ∧ s.req.x3.toInt ≤ 2) ∧
      -999 ≤ durValue s.req.x0.toInt s.req.x1.toInt s.req.x2.toInt
        (durMode s.req.x0.toInt s.req.x1.toInt s.req.x3.toInt) ∧
      durValue s.req.x0.toInt s.req.x1.toInt s.req.x2.toInt
        (durMode s.req.x0.toInt s.req.x1.toInt s.req.x3.toInt) ≤ 9999 := by
  refine and_congr_right fun ⟨h0, h2⟩ => ?_
  rw [durValue_durMode _ _ _ h0 h2]
  by_cases hmode : ShowsHourMinute s.req.x0.toInt s.req.x1.toInt s.req.x3.toInt
  · have hother : ¬ (s.req.x3.toInt = 1 ∨ (s.req.x3.toInt = 2 ∧ s.req.x0.toInt = 0 ∧ -10 < s.req.x1.toInt)) := by
      omega
    simp only [hmode, hother, if_true, forall_const, false_implies, and_true]
  · have hother : s.req.x3.toInt = 1 ∨ (s.req.x3.toInt = 2 ∧ s.req.x0.toInt = 0 ∧ -10 < s.req.x1.toInt) := by
      omega
    simp only [hmode, hother, if_false, forall_const, false_implies, true_and]

/-! ### The display operations, each beside its value encoding (44_display_operations R200 to R206) -/

/-- The display operation `i` and the value encoding `ve` share the encoding `shows`; `more` are the sets after the digits;
the encoding accepts the operands in range and raises `ERR_ARG` on the others. -/
structure Displays (i ve : Instr) (shows : State → Except Status Shown) (more : List SetReq) : Prop where
  disp   : ∀ s, exec i s = hostOp (fun s => dispOp (shows s) more s) s
  encode : ∀ s, exec ve s = hostOp (fun s => finishShown (shows s) s) s
  ok     : ∀ s, OperandsInRange i s → ∃ p, shows s = .ok p
  error  : ∀ s, ¬ OperandsInRange i s → shows s = .error .errArg

theorem displays_int : Displays .dispInt .veInt showInt [] where
  disp _ := rfl
  encode _ := rfl
  ok _ h := map_ok _ (intDisplay_in_range _ _ h)
  error s h := by
    simp only [OperandsInRange] at h
    exact congrArg (Except.map _) (intDisplay_out_of_range (n := s.req.x0.toInt) _ _ (by omega))

theorem displays_fix : Displays .dispFix .veFix showFix [] where
  disp _ := rfl
  encode _ := rfl
  ok _ := fun ⟨h0, h3, h⟩ => map_ok _ (fixDisplay_in_range _ _ h0 h3 h)
  error s h := by
    simp only [OperandsInRange] at h
    exact congrArg (Except.map _) (fixDisplay_out_of_range (m := s.req.x0.toInt) (p := s.req.x2.toInt) _ _ (by omega))

theorem displays_str : Displays .dispStr .veStr showStr [] where
  disp _ := rfl
  encode _ := rfl
  ok _ _ := ⟨_, rfl⟩
  error _ h := absurd trivial h

theorem displays_clk : Displays .dispClk .veClk showClk [] where
  disp _ := rfl
  encode _ := rfl
  ok s h := by
    simp only [OperandsInRange] at h
    exact map_ok _ (clkDisplay_in_range (hour := s.req.x0.toInt) (minute := s.req.x1.toInt) _ _ _ (by omega))
  error s h := by
    simp only [OperandsInRange] at h
    exact congrArg (Except.map _)
      (clkDisplay_out_of_range (hour := s.req.x0.toInt) (minute := s.req.x1.toInt) _ _ _ (by omega))

theorem displays_dur : Displays .dispDur .veDur showDur [] where
  disp _ := rfl
  encode _ := rfl
  ok s h := by
    obtain ⟨⟨h0, h2⟩, hvalue⟩ := durOperands_iff.1 h
    have hshow := durDisplay_of_mode s.cfg.seg s.req.x0.toInt s.req.x1.toInt s.req.x2.toInt h0 h2
    obtain ⟨r, hr⟩ := map_ok (·, durMode s.req.x0.toInt s.req.x1.toInt s.req.x3.toInt)
      (intDisplay_in_range s.cfg.seg true hvalue)
    exact map_ok _ ⟨r, hshow.trans hr⟩
  error s h := by
    rw [durOperands_iff] at h
    by_cases hmode : 0 ≤ s.req.x3.toInt ∧ s.req.x3.toInt ≤ 2
    · obtain ⟨h0, h2⟩ := hmode
      have hshow := durDisplay_of_mode s.cfg.seg s.req.x0.toInt s.req.x1.toInt s.req.x2.toInt h0 h2
      rw [intDisplay_out_of_range s.cfg.seg true (by omega)] at hshow
      exact congrArg (Except.map _) hshow
    · exact congrArg (Except.map _)
        (durDisplay_unknown_mode (mode := s.req.x3.toInt) s.cfg.seg _ _ _ (by omega))

theorem displays_tmp : Displays .dispTmp .veTmp showTmp tmpIndicators where
  disp _ := rfl
  encode _ := rfl
  ok s h := by
    simp only [OperandsInRange] at h
    exact map_ok _ (tmpDisplay_in_range (t10 := s.req.x0.toInt) _ _ _ (by omega))
  error s h := by
    simp only [OperandsInRange] at h
    exact congrArg (Except.map _) (tmpDisplay_out_of_range (t10 := s.req.x0.toInt) _ _ _ (by omega))

/-! ### The start of a display operation (44_display_operations R200) -/

/-- The state in which a display operation with the digits `d` has started their set, with `more` to follow. -/
def displayStarted (rv : Draw Word) (d : Digits) (more : List SetReq) (s : State) : State :=
  beginDispSet ⟨0x01, d.toList⟩ { putResults rv (.val d.toList) s with disp := some ⟨more, true⟩ }

theorem dispOp_ok {s : State} (hm : s.cfg.moduleType = .sevenSegment) (rv : Draw Word) (d : Digits)
    (more : List SetReq) : dispOp (.ok (rv, d)) more s = displayStarted rv d more s :=
  if_neg (not_not.2 hm)

theorem dispOp_character {s : State} (hm : s.cfg.moduleType = .character) (r : Except Status Shown)
    (more : List SetReq) : dispOp r more s = raise .errArg s :=
  if_pos (by rw [hm]; decide)

/-- Whatever the module, an encoding that raises `ERR_ARG` makes the operation raise it. -/
theorem dispOp_errArg (more : List SetReq) (s : State) : dispOp (.error .errArg) more s = raise .errArg s :=
  ite_self _

theorem delivers_displayStarted (rv : Draw Word) (d : Digits) (more : List SetReq) (s : State) :
    Delivers (displayStarted rv d more s) d.toList :=
  delivers_digits d rv s

theorem startsSet_displayStarted {s : State} (hw : s.cfg.wf = true) (hm : s.cfg.moduleType = .sevenSegment)
    (rv : Draw Word) (d : Digits) (more : List SetReq) :
    StartsSet s (displayStarted rv d more s) 0x01 false d.toList :=
  have hfits : d.toList.length ≤ s.cfg.pcap := four_le_pcap hw hm
  { startsSet_beginSet (s := putResults rv (.val d.toList) s) 0x01 false hfits (some ⟨more, true⟩) with }

theorem onlyChannel_displayStarted (rv : Draw Word) (d : Digits) (more : List SetReq) (s : State) :
    OnlyChannel s (displayStarted rv d more s) := by
  constructor <;> intros <;> rfl

section
variable {i ve : Instr} {shows : State → Except Status Shown} {more : List SetReq} {s : State}
  (h : Displays i ve shows more) (hb : s.busy = false)
include h hb

/-- The two operations of one encoding draw the same `RV` and deliver the same digits. -/
theorem Displays.starts (hw : s.cfg.wf = true) (hm : s.cfg.moduleType = .sevenSegment) (hin : OperandsInRange i s) :
    ∃ t v digits, exec i s = .next t ∧ exec ve s = .next v ∧ v.res.st = .ok ∧
      digits.length = 4 ∧ Delivers v digits ∧ Delivers t digits ∧ t.res.st = s.res.st ∧ t.res.rv = v.res.rv ∧
      StartsSet s t 0x01 false digits ∧ t.disp = some ⟨more, true⟩ ∧ t.msgid = s.msgid ∧ OnlyChannel s t := by
  obtain ⟨⟨rv, d⟩, hshow⟩ := h.ok s hin
  have hdisp : exec i s = .next (displayStarted rv d more s) := by
    rw [h.disp, hostOp_of_free hb, hshow, dispOp_ok hm]
  have hve : exec ve s = .next (finish .ok rv (.val d.toList) s) := by
    rw [h.encode, hostOp_of_free hb, hshow]
    rfl
  exact ⟨_, _, d.toList, hdisp, hve, rfl, rfl, delivers_digits d rv s, delivers_displayStarted rv d more s, rfl, rfl,
    startsSet_displayStarted hw hm rv d more, rfl, beginDispSet_msgid (s := putResults rv (.val d.toList) s) hm,
    onlyChannel_displayStarted rv d more s⟩

theorem Displays.raises (hbad : s.cfg.moduleType = .character ∨ ¬ OperandsInRange i s) : Raises i s .errArg := by
  refine raises_of_meaning h.disp hb ?_
  rcases hbad with hm | hout
  · exact dispOp_character hm _ _
  · rw [h.error s hout]
    exact dispOp_errArg more s

end

/-- Settles O27: each row shares its encoding with the value encoder (`Displays`), and `Displays.starts` says what both
leave. -/
theorem displayOperationStartsSet : Obligations.DisplayOperationStartsSet := by
  intro r hr s hb hw hm hin
  suffices hshares : ∃ shows, Displays r.1 r.2.1 shows r.2.2 by
    obtain ⟨shows, h⟩ := hshares
    obtain ⟨t, v, digits, hdisp, hve, hok, hlen, hdv, hdt, hst, hrv, hrest⟩ := h.starts hb hw hm hin
    exact ⟨t, v, digits, hdisp, hve, hok, hlen, hdv, hdt, hst, fun _ => hrv, hrest⟩
  simp only [List.mem_cons, List.not_mem_nil, or_false] at hr
  rcases hr with rfl | rfl | rfl | rfl | rfl | rfl
  · exact ⟨_, displays_int⟩
  · exact ⟨_, displays_fix⟩
  · exact ⟨_, displays_str⟩
  · exact ⟨_, displays_clk⟩
  · exact ⟨_, displays_dur⟩
  · exact ⟨_, displays_tmp⟩

/-- Settles O28: the module check and the encoding come before the set, and each raises by `Displays.raises`. -/
theorem displayOperationRaisesFirst : Obligations.DisplayOperationRaisesFirst := by
  intro i hi s hb hbad
  simp only [List.mem_cons, List.not_mem_nil, or_false] at hi
  rcases hi with rfl | rfl | rfl | rfl | rfl | rfl
  · exact displays_int.raises hb hbad
  · exact displays_fix.raises hb hbad
  · exact displays_str.raises hb hbad
  · exact displays_clk.raises hb hbad
  · exact displays_dur.raises hb hbad
  · exact displays_tmp.raises hb hbad

/-! ### The sets of a display operation in order (44_display_operations R206) -/

theorem stepEnd_endDisp {s : State} {allOk : Bool} (ok : Bool) (hk : s.cc.kind = .set)
    (hd : s.disp = some ⟨[], allOk⟩) : stepEnd ok s = endDisp (allOk && ok) s := by
  simp [stepEnd, hk, endSet, hd]

theorem stepEnd_endDispSet {s : State} {r : SetReq} {rest : List SetReq} {allOk : Bool} (ok : Bool)
    (hk : s.cc.kind = .set) (hd : s.disp = some ⟨r :: rest, allOk⟩) :
    stepEnd ok s = endDispSet (r :: rest) (allOk && ok) s := by
  simp [stepEnd, hk, endSet, hd]

theorem noExchange_endDisp (ok : Bool) (s : State) : NoExchange s (endDisp ok s) := by
  constructor <;> intros <;> rfl

theorem noExchange_endDispSet (pending : List SetReq) (ok : Bool) (s : State) :
    NoExchange s (endDispSet pending ok s) := by
  constructor <;> intros <;> rfl

theorem endDisp_rv (s : State) : (endDisp true s).res.rv = s.res.rv := rfl

theorem beq_success_endState (ok : Bool) : (endState ok == .success) = ok := by
  cases ok <;> rfl

theorem noExchange_beginDispSet (r : SetReq) (d : Option DispRun) (s : State) :
    NoExchange s (beginDispSet r { s with disp := d }) := by
  constructor <;> intros <;> rfl

/-- Between two sets the step from `Idle` starts the next one, whatever the start line says. -/
theorem step_nextSet {s : State} {r : SetReq} {rest : List SetReq} {allOk : Bool} (hr : (linesNow s).reset = false)
    (hst : s.cc.st = .idle) (hd : s.disp = some ⟨r :: rest, allOk⟩) :
    step s = .next (beginDispSet r { takeStart (sample s) with disp := some ⟨rest, allOk⟩ }) := by
  rw [← stepNextSet_of (s := takeStart (sample s)) hd]
  simp [step, blockStep, hr, hst, hd]

theorem StartsSet.of_sampled {s t : State} {ep : BitVec 7} {subEn : Bool} {value : List Byte}
    (h : StartsSet (takeStart (sample s)) t ep subEn value) : StartsSet s t ep subEn value := { h with }

/-- Settles O39: the end of a set is `endDisp` after the last one and `endDispSet` before; the step between two sets is
`beginDispSet` of the next. -/
theorem displaySetsRunInOrder : Obligations.DisplaySetsRunInOrder := by
  rintro s ⟨pending, allOk⟩ h hr hd
  obtain ⟨hk, hm, hknown⟩ := h.dispSet _ hd
  refine ⟨fun hst => ?_, fun hst r rest hpending => ?_⟩
  · obtain ⟨ok, hok⟩ := endState_of hst
    have hend := step_endState hr hok
    simp only [hok, beq_success_endState]
    cases pending with
    | nil =>
      rw [stepEnd_endDisp (s := takeStart (sample s)) ok hk hd] at hend
      refine ⟨_, hend, rfl, fun _ => rfl, rfl, rfl, (noExchange_endDisp _ _).of_sampled, sample_rdy s,
        fun hne => absurd rfl hne, fun _ => ⟨rfl, rfl, rfl, rfl, fun hall => ?_⟩⟩
      rw [hall]
      exact endDisp_rv _
    | cons r rest =>
      rw [stepEnd_endDispSet (s := takeStart (sample s)) ok hk hd] at hend
      exact ⟨_, hend, rfl, fun _ => rfl, rfl, rfl, (noExchange_endDispSet _ _ _).of_sampled, sample_rdy s,
        fun _ => ⟨rfl, rfl, rfl, rfl⟩, nofun⟩
  · obtain rfl : pending = r :: rest := hpending
    have hfits : r.value.length ≤ s.cfg.pcap := (hknown r List.mem_cons_self).2.trans (four_le_pcap h.cfgWf hm)
    have hstart := startsSet_beginSet (s := takeStart (sample s)) r.ep false hfits (some ⟨rest, allOk⟩)
    exact ⟨_, step_nextSet hr hst hd, hstart.of_sampled, rfl, rfl,
      beginDispSet_msgid (s := takeStart (sample s)) hm, rfl, (noExchange_beginDispSet r _ _).of_sampled, sample_rdy s⟩

end Sys2Proof.Machine

namespace Sys2Proof.Machine

/-! ### A started operation is fetched, decoded and run (60_exceptions R228, R224, 30_encoding R80, R82) -/

theorem runFetched_of_fetch {s : State} {i : Instr} (h : fetch s = .ok i) : runFetched s = exec i s := by
  simp only [runFetched, h]

theorem fetchBytes_idle {s : State} (hst : s.cc.st = .idle) :
    fetchBytes s = if setPending s.disp then [] else [s.req.op] := by
  simp only [fetchBytes, hst]

/-- The states that fetch bytes are those whose step runs what is fetched; `Idle` does so once start is pulsed. -/
theorem step_of_fetchBytes {s : State} (hr : (linesNow s).reset = false) (hs : s.cc.st = .idle → s.start = true)
    (hf : fetchBytes s ≠ []) : step s = runFetched (takeStart (sample s)) := by
  cases hst : s.cc.st with
  | idle =>
    have hp : setPending s.disp = false := by
      by_contra hp
      exact hf ((fetchBytes_idle hst).trans (if_pos (by simpa using hp)))
    simp [step, blockStep, hr, hst, hp, hs hst]
  | sending | polling => simp [step, blockStep, hr, hst]
  | awaitingSignal | validating | retryInner | retryOuter | success | failed =>
    exact absurd (by simp only [fetchBytes, hst]) hf

/-- Settles O40: bytes that decode are not empty, and neither sampling the lines nor taking the start pulse changes what is
fetched. -/
theorem stepRunsDecodedInstruction : Obligations.StepRunsDecodedInstruction := by
  intro s i hr hs hd _
  have hf : fetchBytes s ≠ [] := by
    intro hempty
    rw [hempty] at hd
    cases hd
  have hfetch : fetch (takeStart (sample s)) = .ok i := hd
  exact (step_of_fetchBytes hr hs hf).trans (runFetched_of_fetch hfetch)

theorem fetchBytes_of_free {s : State} (hb : s.busy = false) : fetchBytes s = [s.req.op] := by
  obtain ⟨hst, hp⟩ := busy_eq_false.1 hb
  rw [fetchBytes_idle hst, hp]
  rfl

/-- Settles O41: the step is `runFetched` of a block that is not busy, which finds no operation with a reserved code. -/
theorem reservedCodeRaisesErrOp : Obligations.ReservedCodeRaisesErrOp := by
  intro s hr hb hs hreserved
  have hstep : step s = runFetched (takeStart (sample s)) :=
    step_of_fetchBytes hr (fun _ => hs) (by simp [fetchBytes_of_free hb])
  obtain ⟨t, hrun, ⟨i, hi, _⟩ | ⟨_, rfl⟩⟩ := runFetched_free (s := takeStart (sample s)) (by simpa using hb)
  · exact absurd hi (hreserved i)
  · exact ⟨_, hstep.trans hrun, rfl, rfl, onlyResults_finish .errOp .any .any _⟩

/-! ### A start at a busy block (60_exceptions R228) -/

/-- Every word of one byte means a host operation, which the handshake guards. -/
theorem exec_eq_hostOp {i : Instr} (hi : (encode i).length = 1) : ∃ f, ∀ s, exec i s = hostOp f s := by
  cases i
  case poll | rdDisplayValue | rdBrightness | rdColon | rdApostrophe | wrDisplayValue | wrBrightness | wrColon |
      wrApostrophe | rdColor | rdRawPassthrough | rdLine | rdCustomCharacter | wrColor | wrRawPassthrough | wrLine |
      wrCustomCharacter => exact absurd hi (by decide)
  all_goals exact ⟨_, fun _ => rfl⟩

/-- A busy block drops the start pulse before it does anything else. -/
theorem blockStep_takeStart {s : State} (hb : s.busy = true) : blockStep (takeStart s) = blockStep s := by
  cases hst : s.cc.st with
  | idle =>
    have hp : setPending s.disp = true := by simpa [State.busy, hst] using hb
    simp only [blockStep, takeStart_cc, takeStart_disp, hst, hp]
    rfl
  | sending | polling | awaitingSignal | validating | retryInner | retryOuter | success | failed =>
    simp only [blockStep, takeStart_cc, hst]
    rfl

@[simp] theorem linesNow_takeStart (s : State) : linesNow (takeStart s) = linesNow s := rfl

theorem sample_takeStart (s : State) : sample (takeStart s) = takeStart (sample s) := by
  unfold sample
  rw [linesNow_takeStart]
  split <;> rfl

theorem applyReset_takeStart (s : State) : applyReset (takeStart s) = applyReset s := rfl

/-- Reset drops a start pulse as well. -/
theorem step_takeStart {s : State} (hb : s.busy = true) : step (takeStart s) = step s := by
  have hblock : blockStep (takeStart (sample s)) = blockStep (sample s) := blockStep_takeStart (by simpa using hb)
  simp only [step, linesNow_takeStart, sample_takeStart, applyReset_takeStart, hblock]

/-- Settles O42: to take the start pulse off changes no step of a busy block, and the handshake stops every host
operation there. -/
theorem startWhileBusyHasNoEffect : Obligations.StartWhileBusyHasNoEffect := by
  refine ⟨fun s => busy_of_st, fun s hb => ⟨(step_takeStart (s := { s with start := true }) hb).symm, fun i hi => ?_⟩⟩
  obtain ⟨f, hexec⟩ := exec_eq_hostOp hi
  exact (hexec s).trans (hostOp_of_busy hb)

/-! ### The two error tiers (60_exceptions R220, R222) -/

/-- The end of a transaction reports `OK` or `FAIL`, or nothing where a display operation goes on. -/
theorem stepEnd_res (ok : Bool) (s : State) :
    (stepEnd ok s).res = s.res ∨ (stepEnd ok s).res.st = .ok ∨ (stepEnd ok s).res.st = .fail := by
  unfold stepEnd
  cases s.cc.kind with
  | get => cases ok <;> simp [endGet]
  | set =>
    rcases hd : s.disp with _ | ⟨_ | ⟨r, rest⟩, allOk⟩ <;> simp only [endSet, hd]
    · cases ok <;> simp [endHostSet]
    · cases allOk && ok <;> simp [endDisp]
    · exact .inl rfl

/-- A step of a busy block writes the results only at the end of a transaction. -/
theorem StepCase.res_of_busy {s t : State} (h : StepCase s t) (hr : (linesNow s).reset = false) (hb : s.busy = true) :
    t.res = s.res ∨
      ((s.cc.st = .success ∨ s.cc.st = .failed) ∧ (t.res.st = .ok ∨ t.res.st = .fail)) := by
  cases h with
  | reset hreset => cases hr.symm.trans hreset
  | rest _ hb' | op _ hb' | reserved _ hb' => cases hb.symm.trans hb'
  | nextSet | write | read | await | poll | reject | accept => exact .inl rfl
  | retryInner =>
    obtain ⟨_, _, _, _, hres, _⟩ := stepRetryInner_leaves (takeStart (sample s))
    exact .inl hres
  | retryOuter =>
    obtain ⟨_, _, _, _, hres, _⟩ := stepRetryOuter_leaves (takeStart (sample s))
    exact .inl hres
  | success _ hst => exact (stepEnd_res _ _).imp_right (⟨.inl hst, ·⟩)
  | failed _ hst => exact (stepEnd_res _ _).imp_right (⟨.inr hst, ·⟩)

/-- The step starts a transaction and writes no status. -/
structure StartsTransaction (s t : State) : Prop where
  st   : t.cc.st = .sending
  res  : t.res.st = s.res.st
  done : t.done = false

/-- The step starts no transaction, and if it writes a status it is not that of a failed one (60_exceptions R222). -/
structure StaysOutOfChannel (s t : State) : Prop where
  cc    : t.cc = s.cc
  msgid : t.msgid = s.msgid
  disp  : t.disp = s.disp
  res   : t.res.st = s.res.st ∨ (t.res.st ≠ .fail ∧ t.done = true)

/-- Both frame buffers and the answers to come are as before: no exchange was made. -/
structure SameTransport (s t : State) : Prop where
  txbuf   : t.txbuf = s.txbuf
  rxbuf   : t.rxbuf = s.rxbuf
  answers : t.answers = s.answers

theorem HostStep.starts_or_stays {i : Instr} {s t : State} (h : HostStep i s t) :
    StartsTransaction s t ∨ StaysOutOfChannel s t := by
  cases h with
  | ends st _ _ hst => exact .inr ⟨rfl, rfl, rfl, .inr ⟨hst, rfl⟩⟩
  | set | get | display => exact .inl ⟨rfl, rfl, rfl⟩

theorem HostStep.sameTransport {i : Instr} {s t : State} (h : HostStep i s t) : SameTransport s t := by
  cases h <;> exact ⟨rfl, rfl, rfl⟩

theorem stepAtRest_staysOutOfChannel (s : State) : StaysOutOfChannel s (stepAtRest s) := by
  unfold stepAtRest
  cases s.host <;> exact ⟨rfl, rfl, rfl, .inl rfl⟩

theorem stepAtRest_sameTransport (s : State) : SameTransport s (stepAtRest s) := by
  unfold stepAtRest
  cases s.host <;> exact ⟨rfl, rfl, rfl⟩

/-- What a step of a block that is not busy does: with start pulsed it runs a host operation or raises `ERR_OP`, else the
host may move. -/
theorem StepCase.of_free {s t : State} (h : StepCase s t) (hr : (linesNow s).reset = false) (hb : s.busy = false) :
    (StartsTransaction s t ∨ StaysOutOfChannel s t) ∧ SameTransport s t := by
  rcases idle_step_cases h hr (busy_eq_false.1 hb).1 with
    ⟨_, _, rfl⟩ | ⟨_, _, i, _, ht⟩ | ⟨_, _, rfl⟩ | ⟨hb', _⟩
  · exact ⟨.inr { stepAtRest_staysOutOfChannel (sample s) with }, { stepAtRest_sameTransport (sample s) with }⟩
  · exact ⟨ht.starts_or_stays.imp (fun hstart => { hstart with }) (fun hstay => { hstay with }),
      { ht.sameTransport with }⟩
  · exact ⟨.inr ⟨rfl, rfl, rfl, .inr ⟨by simp, rfl⟩⟩, rfl, rfl, rfl⟩
  · cases hb.symm.trans hb'

/-- Settles O47: the clauses on a busy block by `StepCase.res_of_busy`, those on a block that is not busy by
`StepCase.of_free`, and the latch by `StepCase.rdy_eq_sample`. -/
theorem errorTiersNeverMerge : Obligations.ErrorTiersNeverMerge := by
  intro s t hr hstep
  have h := step_next_cases hstep
  refine ⟨fun hb => ?_, fun hb hne => ?_, fun hb => ?_, fun hb hst => ?_, fun hb hst => ?_, fun hb hne => ?_,
    fun hb => ?_⟩
  · exact (h.res_of_busy hr hb).imp (congrArg ResRegs.st) And.right
  · rcases h.res_of_busy hr hb with hres | ⟨hend, _⟩
    · exact absurd (congrArg ResRegs.st hres) hne
    · exact hend
  · rcases (h.of_free hr hb).1 with hstart | hstay
    · exact .inl hstart.res
    · exact hstay.res.imp_right And.left
  · rcases (h.of_free hr hb).1 with hstart | hstay
    · exact ⟨hstart.res, hstart.done⟩
    · exact absurd (hstay.cc ▸ (busy_eq_false.1 hb).1) hst
  · rcases (h.of_free hr hb).1 with hstart | hstay
    · cases hstart.st.symm.trans hst
    · have hidle : s.cc.st ≠ .awaitingSignal := by simp [(busy_eq_false.1 hb).1]
      exact ⟨hstay.cc, hstay.msgid, hstay.disp, (h.rdy_eq_sample hr hidle).trans (sample_rdy s)⟩
  · rcases (h.of_free hr hb).1 with hstart | hstay
    · exact absurd hstart.res hne
    · exact ⟨hstay.cc, hstay.msgid, (hstay.res.resolve_left hne).2⟩
  · obtain ⟨htx, hrx, hanswers⟩ := (h.of_free hr hb).2
    exact ⟨htx, hrx, hanswers⟩

/-! ### The host's next request (60_exceptions R228, 30_encoding R83, R84) -/

/-- The state in which the block runs the request `r` that the host placed in the step before, with `rs` still to come. -/
def requested (r : Request) (rs : List Request) (s : State) : State :=
  takeStart (sample (placeRequest r { sample s with host := rs }))

@[simp] theorem requested_busy (r : Request) (rs : List Request) (s : State) : (requested r rs s).busy = s.busy := rfl

theorem step_placesRequest {s : State} {r : Request} {rs : List Request} (hr : (linesNow s).reset = false)
    (hb : s.busy = false) (hs : s.start = false) (hh : s.host = r :: rs) :
    step s = .next (placeRequest r { sample s with host := rs }) := by
  obtain ⟨hst, hp⟩ := busy_eq_false.1 hb
  simp [step, blockStep, hr, hst, hp, hs, stepAtRest, hh]

/-- Two steps of a block at rest place the host's next request and run its operation. -/
theorem run_two_of_request {s t : State} {r : Request} {rs : List Request} {i : Instr} (hreset : NoReset s)
    (hb : s.busy = false) (hs : s.start = false) (hh : s.host = r :: rs) (hi : encode i = [r.op])
    (ht : exec i (requested r rs s) = .next t) : Sys2Proof.core.run 2 s = .next t := by
  have hplace := step_placesRequest hreset.now hb hs hh
  have hfree : (placeRequest r { sample s with host := rs }).busy = false := hb
  have hdecode : decode s.cfg.moduleType (fetchBytes (placeRequest r { sample s with host := rs })) = .ok i := by
    rw [fetchBytes_of_free hfree]
    exact decodeOp_of_encode hi
  have hrun := stepRunsDecodedInstruction _ i (noReset_of_step hreset hplace).now (fun _ => rfl) hdecode
    (wf_of_encode_singleton _ hi)
  exact (run_succ_of_step hplace 1).trans (run_succ_of_step (hrun.trans ht) 0)

/-- `DIN` and `DLEN` hold the bytes of a request that `DLEN` can count (10_state R21). -/
theorem dinBytes_placeRequest {r : Request} (s : State) (h : r.din.length ≤ 255) :
    dinBytes (placeRequest r s) = r.din := by
  have htake : r.din.take 255 = r.din := List.take_of_length_le h
  have hlen : (BitVec.ofNat 8 r.din.length).toNat = r.din.length := Nat.mod_eq_of_lt (Nat.lt_succ_of_le h)
  simp only [dinBytes, placeRequest, htake, hlen]
  exact bytes_ofBytes rfl

theorem wantOf_of_plain {e : Endpoint} (sub : Byte) (value : List Byte) (h : e.hasSub = false) :
    wantOf e sub value = value := by
  simp [wantOf, h]

/-- A set of an endpoint without a sub-identifier is admitted when its bytes fit the frame and the endpoint. -/
theorem admitSet_of_plain {s : State} {e : Endpoint} (he : endpoint? s.cfg s.req.ep = some e)
    (hsub : s.req.subEn = false) (hplain : e.hasSub = false) (hcap : (dinBytes s).length ≤ s.cfg.pcap)
    (hwidth : (dinBytes s).length ≤ e.width) : admitSet s = .ok (dinBytes s) := by
  rw [admitSet_of_admitGet_ok (admitGet_of_sub_eq he (hsub.trans hplain.symm)), wantOf_of_plain _ _ hplain,
    if_neg (Nat.not_lt.2 hcap), if_neg (Nat.not_lt.2 hwidth)]

theorem dinBytes_requested (r : Request) (rs : List Request) (s : State) (h : r.din.length ≤ 255) :
    dinBytes (requested r rs s) = r.din :=
  dinBytes_placeRequest { sample s with host := rs } h

/-- `CC.SET` of DisplayValue on a seven-segment module is admitted with its four digits (10_state R24). -/
theorem admitSet_setDisplayValue {s : State} (hw : s.cfg.wf = true) (hm : s.cfg.moduleType = .sevenSegment)
    (d1 d2 d3 d4 : Byte) (rs : List Request) :
    admitSet (requested (setDisplayValue d1 d2 d3 d4) rs s) = .ok [d1, d2, d3, d4] := by
  have he : endpoint? s.cfg 0x01 = some ⟨0x01, 4, false, false⟩ := by simp [endpoint?, epTable_sevenSegment hm]
  have hdin : dinBytes (requested (setDisplayValue d1 d2 d3 d4) rs s) = [d1, d2, d3, d4] :=
    dinBytes_requested _ _ _ (Nat.le_of_ble_eq_true rfl)
  have hlen : (dinBytes (requested (setDisplayValue d1 d2 d3 d4) rs s)).length = 4 := congrArg List.length hdin
  rw [admitSet_of_plain he rfl rfl (hlen.le.trans (four_le_pcap hw hm)) hlen.le, hdin]

/-- Settles O48: the two steps run the admitted `CC.SET`, which starts the set of the four digits. -/
theorem hostRequestIsPlacedAndRun : Obligations.HostRequestIsPlacedAndRun := by
  intro s d1 d2 d3 d4 hs h hm hreset hb hstart hh
  have hadmit := admitSet_setDisplayValue h.cfgWf hm d1 d2 d3 d4 hs
  have hexec := exec_ccSet_of_ok ((requested_busy _ _ _).trans hb) hadmit
  have hrun := run_two_of_request hreset hb hstart hh rfl hexec
  have hfits : [d1, d2, d3, d4].length ≤ s.cfg.pcap := four_le_pcap h.cfgWf hm
  have hset := startsSet_beginSet (s := requested (setDisplayValue d1 d2 d3 d4) hs s) 0x01 false hfits none
  exact ⟨_, hrun, hset.st, hset.kind, hset.phase, hset.ep, hset.want, BitVec.eq_of_toNat_eq hset.wlen,
    hset.wcnt.trans (budgets h.cfgWf).1, rfl, rfl, rfl⟩

end Sys2Proof.Machine

namespace Sys2Proof.Machine

/-! ### A dead or looped-back bus (70_reset_and_hazards R253)

The command byte alone rejects it, whatever the trailer holds: the byte a response must carry is `READ` OR'd with a listed
endpoint, so it is neither `0x00` (the poll frame's) nor has bit 7 set (30_encoding R71). -/

theorem cmdOf_replicate {n : Nat} (h : 1 < n) (b : Byte) : cmdOf (List.replicate n b) = b := by
  simp [cmdOf, h]

theorem cmdOf_pollFrame (c : Config) : cmdOf (pollFrame c) = 0x00 :=
  frameOf_getD_one c false 0x00 []

/-- What a dead or looped-back bus leaves in the place of the command byte. -/
theorem cmdOf_deadBus {c : Config} {rx : List Byte} (hn : 1 < c.n)
    (h : rx = List.replicate c.n 0x00 ∨ rx = List.replicate c.n 0xFF ∨ rx = pollFrame c) :
    cmdOf rx = 0x00 ∨ cmdOf rx = 0xFF := by
  rcases h with rfl | rfl | rfl
  · exact .inl (cmdOf_replicate hn 0x00)
  · exact .inr (cmdOf_replicate hn 0xFF)
  · exact .inl (cmdOf_pollFrame c)

theorem cmdByte_read_ne_ones (ep : BitVec 7) : cmdByte false ep ≠ 0xFF := by
  intro h
  have hbit := cmdByte_bit7 false ep
  rw [h] at hbit
  exact absurd hbit (by decide)

theorem expectedCmd_ne_dead {s : State} (he : (endpoint? s.cfg s.cc.ep).isSome = true) :
    ¬ (expectedCmd s = 0x00 ∨ expectedCmd s = 0xFF) :=
  not_or.2 ⟨cmdByte_ne_zero false s.cc.ep (endpoint?_ne_zero he), cmdByte_read_ne_ones s.cc.ep⟩

/-- An accepted response carries the expected command byte at offset 1 (42_command_channel R141). -/
theorem cmdOf_of_accept {s : State} (hc : s.cfg.wf = true) (he : (endpoint? s.cfg s.cc.ep).isSome = true)
    (ho : s.cfg.cmdOffset = 1) (ha : accept s = true) : cmdOf (s.rxbuf.bytes s.cfg.n) = expectedCmd s := by
  obtain ⟨e, he⟩ := Option.isSome_iff_exists.1 he
  obtain ⟨_, hcmd, _⟩ := (accept_iff hc he).1 ha
  have hn : 1 < s.cfg.n := (three_le_n hc).trans' (by decide)
  calc cmdOf (s.rxbuf.bytes s.cfg.n)
      = s.rxbuf.read 1 := (read_eq_getD_bytes s.rxbuf hn).symm
    _ = s.rxbuf.read s.cfg.cmdOffset.toNat := by rw [ho]; rfl
    _ = expectedCmd s := hcmd.trans (expectedCmd_eq s).symm

/-- Settles O57: the command byte of such a response is not the expected one, so the validation rejects it. -/
theorem deadBusIsRejected : Obligations.DeadBusIsRejected := by
  intro s h hr hst ho hdead
  have he := h.epKnown (by simp [hst])
  have hn : 1 < s.cfg.n := (three_le_n h.cfgWf).trans' (by decide)
  have hreject : ¬ accept s = true := fun ha =>
    expectedCmd_ne_dead he (cmdOf_of_accept h.cfgWf he ho ha ▸ cmdOf_deadBus hn hdead)
  have hstep := step_validating hr h.cfgWf hst
  rw [if_neg hreject] at hstep
  exact ⟨_, hstep, rfl, rfl⟩

end Sys2Proof.Machine
